-- ==== Sys2Proof/Word.lean ====
section
/-! DEFINITION. The block's two value widths: a register or table entry of 32 bits and a symbol of 8 bits. -/

namespace Sys2Proof

/-- A 32-bit register, index, length, row number or count (00_scope.md R6). -/
abbrev Word := BitVec 32

/-- A symbol, or one entry of a byte buffer (00_scope.md R5). -/
abbrev Byte := BitVec 8

end Sys2Proof
end

