-- ==== Sys2Proof/Syntax.lean ====
section
/-! DEFINITION. The commands of the block, the moves of its host, and the events of one run. -/

namespace Sys2Proof

/-- The twelve commands (30_encoding.md R92). A command word has no operand field: the operand is the register
ARG, latched at issue (30_encoding.md R93), so no constructor has an argument. -/
inductive Instr where
  /-- CTL.NOP (40_ctl.md R113) -/
  | ctlNop
  /-- CTL.RESET (40_ctl.md R114) -/
  | ctlReset
  /-- CSS.BUILD, operand n (41_css.md R122) -/
  | cssBuild
  /-- CSS.LENGTH (41_css.md R129) -/
  | cssLength
  /-- CSS.INDEXAT, operand i (41_css.md R130) -/
  | cssIndexat
  /-- BWT.TRANSFORM, operand n (42_bwt.md R150) -/
  | bwtTransform
  /-- BWT.INVERSE, operand n (42_bwt.md R154) -/
  | bwtInverse
  /-- MTF.INIT (43_mtf.md R184) -/
  | mtfInit
  /-- MTF.ENC1, operand c (43_mtf.md R185) -/
  | mtfEnc1
  /-- MTF.DEC1, operand k (43_mtf.md R186) -/
  | mtfDec1
  /-- MTF.ENCODE, operand n (43_mtf.md R187) -/
  | mtfEncode
  /-- MTF.DECODE, operand n (43_mtf.md R188) -/
  | mtfDecode
  deriving DecidableEq, Repr

/-- The five primitives through which the host reaches the block (20_memory.md R61). -/
inductive HostMove where
  | regRead   (k : Nat)
  | regWrite  (k : Nat) (v : Word)
  | ibufWrite (j : Nat) (b : Byte)
  | ibufRead  (j : Nat)
  | obufRead  (j : Nat)
  deriving DecidableEq, Repr

/-- One event of the total order of 20_memory.md R73. -/
inductive Event where
  /-- a primitive of the host (20_memory.md R61) -/
  | host (m : HostMove)
  /-- the sequencer's turn: it completes the command in execution (40_ctl.md R111) -/
  | sequencer
  /-- the reset input is asserted (70_reset_and_hazards.md R250) -/
  | hardReset
  deriving DecidableEq, Repr

/-- What a host read returned: 32 bits of a register, or a byte of a buffer (20_memory.md R61). -/
inductive Reply where
  | word (v : Word)
  | byte (b : Byte)
  deriving DecidableEq, Repr

/-- One line of the host script language (30_encoding.md R97, R99). It is notation for host moves, no part of the block. -/
inductive ScriptLine where
  /-- `MNEMONIC operand` or `MNEMONIC` alone (R97) -/
  | command (i : Instr) (operand : Option Word)
  /-- a raw command word, as program P5 writes one -/
  | rawWord (w : Word)
  /-- `WAIT` -/
  | wait
  /-- `ARG v` -/
  | arg (v : Word)
  /-- `PUT j, b0 b1 ... bm` -/
  | put (j : Nat) (bytes : List Byte)
  /-- `XFER len`, or `XFER` alone, which takes len from OLEN -/
  | xfer (len : Option Nat)
  /-- `GET reg` -/
  | get (k : Nat)
  /-- `OUT a..b` -/
  | out (a b : Nat)
  deriving DecidableEq, Repr

end Sys2Proof
end

