-- ==== Sys2Proof/Decode.lean ====
section
/-! DEFINITION. The decoder of a command word, by its fields (30_encoding.md R90), and the encoder, by the match
values of the opcode map (30_encoding.md R92). -/

namespace Sys2Proof

/-- Why a word is no command (30_encoding.md R95). -/
inductive IllegalWord where
  /-- a bit of 31:8 is set -/
  | zeroField
  /-- UNIT is 4 to 15 -/
  | unassignedUnit
  /-- the unit exists and FN is none of its functions -/
  | unassignedFunction
  deriving DecidableEq, Repr

/-- What the decoder reads from a word: a command, or an illegal word and the reason. -/
inductive Decoded where
  | instr   (i : Instr)
  | illegal (why : IllegalWord)
  deriving DecidableEq, Repr

/-- The field ZERO, bits 31:8 (30_encoding.md R90). -/
def zeroField (w : Word) : BitVec 24 := w.extractLsb' 8 24

/-- The field UNIT, bits 7:4 (30_encoding.md R90). -/
def unitField (w : Word) : BitVec 4 := w.extractLsb' 4 4

/-- The field FN, bits 3:0 (30_encoding.md R90). -/
def fnField (w : Word) : BitVec 4 := w.extractLsb' 0 4

/-- The functions of unit CTL. -/
def decodeCtl (fn : Nat) : Decoded :=
  match fn with
  | 0 => .instr .ctlNop
  | 1 => .instr .ctlReset
  | _ => .illegal .unassignedFunction

/-- The functions of unit CSS. -/
def decodeCss (fn : Nat) : Decoded :=
  match fn with
  | 0 => .instr .cssBuild
  | 1 => .instr .cssLength
  | 2 => .instr .cssIndexat
  | _ => .illegal .unassignedFunction

/-- The functions of unit BWT. -/
def decodeBwt (fn : Nat) : Decoded :=
  match fn with
  | 0 => .instr .bwtTransform
  | 1 => .instr .bwtInverse
  | _ => .illegal .unassignedFunction

/-- The functions of unit MTF. -/
def decodeMtf (fn : Nat) : Decoded :=
  match fn with
  | 0 => .instr .mtfInit
  | 1 => .instr .mtfEnc1
  | 2 => .instr .mtfDec1
  | 3 => .instr .mtfEncode
  | 4 => .instr .mtfDecode
  | _ => .illegal .unassignedFunction

/-- The decoder, total on every 32-bit word: every bit of the word is decoded (30_encoding.md R92, R95). -/
def decode (w : Word) : Decoded :=
  if zeroField w = 0 then
    match (unitField w).toNat with
    | 0 => decodeCtl (fnField w).toNat
    | 1 => decodeCss (fnField w).toNat
    | 2 => decodeBwt (fnField w).toNat
    | 3 => decodeMtf (fnField w).toNat
    | _ => .illegal .unassignedUnit
  else .illegal .zeroField

/-- The match value of each row of the opcode map (30_encoding.md R92). -/
def encode (i : Instr) : Word :=
  match i with
  | .ctlNop       => 0x00000000
  | .ctlReset     => 0x00000001
  | .cssBuild     => 0x00000010
  | .cssLength    => 0x00000011
  | .cssIndexat   => 0x00000012
  | .bwtTransform => 0x00000020
  | .bwtInverse   => 0x00000021
  | .mtfInit      => 0x00000030
  | .mtfEnc1      => 0x00000031
  | .mtfDec1      => 0x00000032
  | .mtfEncode    => 0x00000033
  | .mtfDecode    => 0x00000034

/-- The command the decoder reads, if it reads one. -/
def Decoded.instr? (d : Decoded) : Option Instr :=
  match d with
  | .instr i   => some i
  | .illegal _ => none

/-- The command our decoder reads from the table's word w of nbits bits; the bits above nbits are 0. A command is
one 32-bit word written whole (30_encoding.md R91), so the table's numbering of its bits is the word's own and no
byte order enters (20_memory.md R64). -/
def decodeTableWord (nbits w : Nat) : Option Instr :=
  if nbits ≤ 32 then (decode (BitVec.ofNat 32 (w % 2 ^ nbits))).instr? else none

end Sys2Proof
end

