-- ==== Sys2Proof/Config.lean ====
section
/-! DEFINITION. What one implementation fixes (00_scope.md R5 to R9) and the free values the spec leaves open. -/

namespace Sys2Proof.Config

/-- The alphabet size R = 256, "a fixed constant, not configurable" (00_scope.md R5). -/
abbrev radix : Nat := 256

/-- The largest legal value of the parameter NMAX, 2^31 - 5 (00_scope.md R7). -/
abbrev nmaxLimit : Nat := 2 ^ 31 - 5

/-- BCAP = NMAX + 4, the capacity in bytes of each host buffer (00_scope.md R7). -/
abbrev bcapOf (nmax : Word) : Nat := nmax.toNat + 4

/-- STKCAP = max(1, floor(NMAX / 2)), the depth of the sorter's work stack (00_scope.md R9, 10_state.md R43). -/
abbrev stkcapOf (nmax : Word) : Nat := max 1 (nmax.toNat / 2)

/-- The value of the open parameter NMAX in `State.reset`.
DESIGN CHOICE (log 2), unsafe: the spec leaves NMAX open; 64 is the value its examples use (95_test_vectors.md). -/
abbrev resetNmax : Word := 64

/-- The k-th free 32-bit value: what an unspecified read returns (93_implementation_defined.md U2, U6; log 6).
It has no body, so nothing can be proved of its value. -/
opaque freeWord : Nat → Word

/-- The k-th free byte: what an unspecified buffer read returns (93_implementation_defined.md U1, U2; log 6). -/
opaque freeByte : Nat → Byte

end Sys2Proof.Config
end

