-- ==== Sys2Proof/Machine/State.lean ====
section
/-! DEFINITION. The state of the block (10_state.md), the ways a step can stop, and the state after hardware reset. -/

namespace Sys2Proof.Machine

/-- One index space as plain data: the entries that hold a known value, by index. An index that is not listed holds an
unspecified value (10_state.md R45; log 4). A memory of bytes is a list of `Host.Cell`. -/
abbrev Memory (α : Type) := List (Nat × α)

/-- The canonical form: indices strictly rising. (An unlisted index has no value, so no entry can repeat it.) -/
abbrev Memory.wf {α : Type} (m : Memory α) : Prop := m.Pairwise (fun a b => a.1 < b.1)

/-- The causes of 60_exceptions.md R211; ERRCODE takes these values and no others. -/
inductive Cause where
  /-- 0, the command did not fail -/
  | none
  /-- 1, E_ABSENT: no operand was supplied -/
  | absent
  /-- 2, E_EMPTY: n = 0 -/
  | empty
  /-- 3, E_CAPACITY: the message does not fit the block -/
  | capacity
  /-- 4, E_INDEX: i >= N -/
  | index
  /-- 5, E_NOSA: SAV = 0 -/
  | nosa
  /-- 6, E_MTFIDX: k >= 256 -/
  | mtfidx
  /-- 7, E_MTFSYM: c >= 256 -/
  | mtfsym
  /-- 8, E_FIRST: first >= n -/
  | first
  /-- 9, E_ILLEGAL: an illegal command word -/
  | illegal
  deriving DecidableEq, Repr

/-- One entry of STACK: a work item (lo, hi, d) of 32-bit values (10_state.md R43). -/
structure StackEntry where
  lo : Word
  hi : Word
  d  : Word
  deriving DecidableEq, Repr

/-- The hidden cursors of 10_state.md R43 (the sorter's partition) and R44 (the other walks). -/
structure Cursors where
  /-- the partition's lt -/
  sortLt : Word
  /-- the partition's gt -/
  sortGt : Word
  /-- the partition's i -/
  sortI : Word
  /-- the pivot character, in [-1, 255] -/
  sortV : Int
  /-- the row counter i of BWT.TRANSFORM -/
  transI : Word
  /-- the loop counter i of BWT.INVERSE -/
  invI : Word
  /-- the loop counter r of BWT.INVERSE -/
  invR : Word
  /-- the loop counter k of BWT.INVERSE -/
  invK : Word
  /-- ROW, the current row of the walk -/
  row : Word
  /-- the stream counter j of the MTF commands -/
  mtfJ : Word
  /-- the position register p of the MTF commands -/
  mtfP : Word
  /-- the symbol in hand c of the MTF commands -/
  mtfC : Byte
  deriving DecidableEq, Repr

/-- Everything the spec gives the block, and the model's own record of the interface. -/
structure State where
  /-- NMAX, register 5, hard-wired (10_state.md R32): a parameter of the instance, changed by no step (log 2) -/
  nmax : Word
  /-- TIEBREAK (00_scope.md R8): texts whose equal rotations are ordered otherwise than RefSort orders them (log 3) -/
  tieBreak : List (List Byte × List Nat)
  /-- ARG, register 1 (R23) -/
  arg : Word
  /-- ARGV, STATUS[3] (R23) -/
  argv : Bool
  /-- BUSY, STATUS[0] (R25) -/
  busy : Bool
  /-- DONE, STATUS[1] (R26) -/
  done : Bool
  /-- ERR, STATUS[2] (R27) -/
  err : Bool
  /-- ERRCODE, STATUS[11:8] (R27) -/
  cause : Cause
  /-- SAV, STATUS[4] (R28) -/
  sav : Bool
  /-- OVR, STATUS[5] (R29) -/
  ovr : Bool
  /-- RESULT, register 3 (R30) -/
  result : Word
  /-- OLEN, register 4 (R31) -/
  olen : Word
  /-- N (R34) -/
  n : Word
  /-- CMDL (R35) -/
  cmdl : Word
  /-- ARGL (R35) -/
  argl : Word
  /-- AVL (R35) -/
  avl : Bool
  /-- IBUF, the input buffer (R36) -/
  ibuf : Memory Byte
  /-- OBUF, the output buffer (R37) -/
  obuf : Memory Byte
  /-- SA, the suffix index array (R38) -/
  sa : Memory Word
  /-- NEXT (R39) -/
  next : Memory Word
  /-- SORTED (R40) -/
  sorted : Memory Byte
  /-- COUNT (R41) -/
  count : Memory Word
  /-- LIST, the recency list, its front first (R42) -/
  list : List Byte
  /-- STACK (R43) -/
  stack : Memory StackEntry
  /-- SP (R43) -/
  sp : Word
  /-- the hidden cursors (R43, R44) -/
  cur : Cursors
  /-- MODEL: the events still to come, in the total order of 20_memory.md R73 (log 1) -/
  schedule : List Event
  /-- MODEL: what the host's reads returned, newest first (log 1) -/
  replies : List Reply
  /-- MODEL: how many free values have been drawn (log 6) -/
  drawn : Nat
  deriving DecidableEq, Repr

/-- Why the machine stops. -/
inductive Fault where
  /-- Raised by a command that passed its checks and whose message covers an IBUF byte the host has not written
  since hardware reset (20_memory.md R76; 93_implementation_defined.md U1 says `fault`). Safe: the hardware goes on
  with an unspecified value, the model gives no result. -/
  | unwrittenInput
  deriving DecidableEq, Repr

/-- What has no meaning in the model. -/
inductive Refusal where
  /-- Raised by an arm of `exec` for an instruction that has no meaning yet. Safe. No arm does. -/
  | notModelled (mnemonic : String)
  /-- Raised by a host primitive with an index outside its space, which is "not a move of the host" (20_memory.md
  R69: "A model refuses them"). Safe: the interface has no such location. -/
  | noSuchLocation (m : HostMove)
  deriving DecidableEq, Repr

/-- The ascending identity order, the initial recency list (43_mtf.md R181). -/
def identityList : List Byte := (List.range Config.radix).map (BitVec.ofNat 8)

/-- The cursors of `State.reset`. DESIGN CHOICE (log 5), unsafe: 10_state.md R45 leaves them unspecified. -/
def Cursors.reset : Cursors :=
  { sortLt := 0, sortGt := 0, sortI := 0, sortV := 0, transI := 0, invI := 0, invR := 0, invK := 0, row := 0,
    mtfJ := 0, mtfP := 0, mtfC := 0 }

/-- The state after hardware reset (10_state.md R45): registers, flags and latches 0, LIST the identity, every memory
unspecified. NMAX is log 2's value, TIEBREAK the default RefSort, and nothing is scheduled. -/
def State.reset : State :=
  { nmax := Config.resetNmax, tieBreak := [],
    arg := 0, argv := false, busy := false, done := false, err := false, cause := .none, sav := false, ovr := false,
    result := 0, olen := 0, n := 0, cmdl := 0, argl := 0, avl := false,
    ibuf := [], obuf := [], sa := [], next := [], sorted := [], count := [], list := identityList, stack := [], sp := 0,
    cur := Cursors.reset, schedule := [], replies := [], drawn := 0 }

end Sys2Proof.Machine
end

