-- ==== Sys2Proof/Machine/Flags.lean ====
section
/-! DEFINITION. The cause codes (60_exceptions.md R211, R212) and the word that a read of STATUS returns (10_state.md R24). -/

namespace Sys2Proof.Machine

/-- The code of a cause, as ERRCODE shows it (60_exceptions.md R211). -/
def Cause.code (c : Cause) : BitVec 4 :=
  match c with
  | .none     => 0
  | .absent   => 1
  | .empty    => 2
  | .capacity => 3
  | .index    => 4
  | .nosa     => 5
  | .mtfidx   => 6
  | .mtfsym   => 7
  | .first    => 8
  | .illegal  => 9

/-- The three classes of failure: band3's two, and the spec's third for cause 9 (60_exceptions.md R212). -/
inductive CauseClass where
  | invalidArgument
  | corruptStream
  | illegalCommand
  deriving DecidableEq, Repr

/-- The class of a cause, "a function of the code" with "no bits of its own" (60_exceptions.md R211, R212). -/
def Cause.classOf (c : Cause) : Option CauseClass :=
  match c with
  | .none     => Option.none
  | .absent   => some .invalidArgument
  | .empty    => some .invalidArgument
  | .capacity => some .invalidArgument
  | .index    => some .invalidArgument
  | .nosa     => some .invalidArgument
  | .mtfidx   => some .invalidArgument
  | .mtfsym   => some .invalidArgument
  | .first    => some .corruptStream
  | .illegal  => some .illegalCommand

/-- STATUS: BUSY in bit 0, DONE 1, ERR 2, ARGV 3, SAV 4, OVR 5, ERRCODE in 11:8, every other bit 0 (10_state.md R24). -/
def State.status (s : State) : Word :=
  0#20 ++ s.cause.code ++ 0#2 ++ BitVec.ofBool s.ovr ++ BitVec.ofBool s.sav ++ BitVec.ofBool s.argv
    ++ BitVec.ofBool s.err ++ BitVec.ofBool s.done ++ BitVec.ofBool s.busy

end Sys2Proof.Machine
end

