-- ==== Sys2Proof/Machine/Rotations.lean ====
section
/-! DEFINITION. Texts, their cyclic rotations and the sorted orders of the rotations (00_scope.md R13, R14; 41_css.md R121). -/

namespace Sys2Proof.Machine

/-- `text[j]`, read only at `j < n`. -/
def symbolAt (text : List Byte) (j : Nat) : Byte := text.getD j 0

/-- rot(a)[d] = text[(a + d) mod n], for d in 0..n-1 (00_scope.md R13). -/
def rotation (text : List Byte) (a : Nat) : List Byte :=
  (List.range text.length).map fun d => symbolAt text ((a + d) % text.length)

/-- Lexicographic order, symbols compared as unsigned integers (00_scope.md R11, R13). -/
def lexLe (xs ys : List Byte) : Bool :=
  match xs, ys with
  | [], _ => true
  | _ :: _, [] => false
  | x :: xs', y :: ys' =>
    if x.toNat < y.toNat then true else if y.toNat < x.toNat then false else lexLe xs' ys'

/-- rot(a) <= rot(b) (00_scope.md R13). -/
def rotLe (text : List Byte) (a b : Nat) : Bool := lexLe (rotation text a) (rotation text b)

/-- `order` is in Sorted(text): a permutation of {0, ..., n-1} whose rotations do not descend (41_css.md R121). -/
abbrev Sorted (text : List Byte) (order : List Nat) : Prop :=
  order.Perm (List.range text.length) ∧ order.Pairwise (fun a b => rotLe text a b = true)

end Sys2Proof.Machine
end

