-- ==== Sys2Proof/WellFormed.lean ====
section
/-! DEFINITION. What is well formed: a command word's format, a host move's index, and the parameters of an instance.
A command has no field (30_encoding.md R93), so every `Instr` is well formed and there is no check on it. -/

namespace Sys2Proof

/-- A word of format C: bits 31:8 are 0 (30_encoding.md R90). -/
def wellFormedWord (w : Word) : Bool := w.toNat < 2 ^ 8

/-- A primitive whose index lies in its space, for buffers of `bcap` bytes (20_memory.md R61, R69). -/
def HostMove.wf (bcap : Nat) (m : HostMove) : Bool :=
  match m with
  | .regRead k     => k < 8
  | .regWrite k _  => k < 8
  | .ibufWrite j _ => j < bcap
  | .ibufRead j    => j < bcap
  | .obufRead j    => j < bcap

/-- A legal value of the parameter NMAX: 1 <= NMAX <= 2^31 - 5 (00_scope.md R7). -/
def legalNmax (nmax : Word) : Bool := 1 ≤ nmax.toNat && nmax.toNat ≤ Config.nmaxLimit

/-- A legal TIEBREAK table: every order it gives is in Sorted(text) (41_css.md R123). -/
def legalTieBreak (table : List (List Byte × List Nat)) : Bool :=
  table.all fun row => decide (Machine.Sorted row.1 row.2)

end Sys2Proof
end

