-- ==== Sys2Proof/Machine/Ops.lean ====
section
/-! DEFINITION. The named operations over memories and registers: reads and writes of an index space, the free values,
issue, the two completions (success, and failure, the block's only exception), and hardware reset. -/

namespace Sys2Proof.Machine

/-! ### Index spaces -/

/-- Entry i of the space, if it holds a known value. -/
def Memory.read {α : Type} (m : Memory α) (i : Nat) : Option α :=
  match m with
  | [] => none
  | (j, v) :: rest => if i = j then some v else Memory.read rest i

/-- Entry i becomes v; every other entry stays; the form stays canonical. -/
def Memory.write {α : Type} (m : Memory α) (i : Nat) (v : α) : Memory α :=
  match m with
  | [] => [(i, v)]
  | (j, u) :: rest =>
    if i < j then (i, v) :: (j, u) :: rest
    else if i = j then (i, v) :: rest
    else (j, u) :: Memory.write rest i v

/-- Entries base, base + 1, ... base + n - 1 in order, if every one of them holds a known value. -/
def Memory.readBlock {α : Type} (m : Memory α) (base n : Nat) : Option (List α) :=
  match n with
  | 0 => some []
  | n + 1 =>
    match Memory.read m base with
    | none => none
    | some v =>
      match Memory.readBlock m (base + 1) n with
      | none => none
      | some vs => some (v :: vs)

/-- The space that lists just `vs`, from entry `base` upward. -/
def Memory.block {α : Type} (base : Nat) (vs : List α) : Memory α :=
  match vs with
  | [] => []
  | v :: rest => (base, v) :: Memory.block (base + 1) rest

/-- Entries 0 to |vs| - 1 become `vs`; every entry from |vs| upward stays. -/
def Memory.writePrefix {α : Type} (m : Memory α) (vs : List α) : Memory α :=
  Memory.block 0 vs ++ m.filter (fun e => vs.length ≤ e.1)

/-! ### Free values -/

/-- The next free value is used up (log 6). -/
def State.draw (s : State) : State := { s with drawn := s.drawn + 1 }

/-! ### Completion, issue and reset -/

/-- Completion of a command that succeeded: BUSY <- 0, DONE <- 1, ERR and ERRCODE stay 0 (40_ctl.md R111). -/
def State.succeed (s : State) : State := { s with busy := false, done := true, err := false, cause := .none }

/-- `raise E_X`, the block's only exception (60_exceptions.md R215): BUSY <- 0, DONE <- 1, ERR <- 1, ERRCODE <- the
cause, and nothing else of the command. There is no handler and no saved context. -/
def State.fail (s : State) (c : Cause) : State := { s with busy := false, done := true, err := true, cause := c }

/-- The return from an error: the next issue clears ERR and ERRCODE (60_exceptions.md R216; 40_ctl.md R110). -/
def State.clearReport (s : State) : State := { s with done := false, err := false, cause := .none }

/-- The eight commands that take an operand (40_ctl.md R110). -/
def takesOperand (i : Instr) : Bool :=
  match i with
  | .ctlNop       => false
  | .ctlReset     => false
  | .cssBuild     => true
  | .cssLength    => false
  | .cssIndexat   => true
  | .bwtTransform => true
  | .bwtInverse   => true
  | .mtfInit      => false
  | .mtfEnc1      => true
  | .mtfDec1      => true
  | .mtfEncode    => true
  | .mtfDecode    => true

/-- Whether the issue of the word w uses up the operand: w is one of the eight commands (40_ctl.md R110). -/
def consumesOperand (w : Word) : Bool :=
  match (decode w).instr? with
  | some i => takesOperand i
  | none => false

/-- Issue of the word w (40_ctl.md R110): the latches, ARGV, BUSY, and the report of the last command cleared. -/
def State.issue (s : State) (w : Word) : State :=
  { s.clearReport with
    cmdl := w, argl := s.arg, avl := s.argv, argv := if consumesOperand w then false else s.argv, busy := true }

/-- A host write that BUSY = 1 drops: it changes nothing but sets OVR (20_memory.md R62). -/
def State.overrun (s : State) : State := { s with ovr := true }

/-- The value a host read returned is handed to the host; a read has no other effect (20_memory.md R67). -/
def State.reply (s : State) (r : Reply) : State := { s with replies := r :: s.replies }

/-- The writes of CTL.RESET (40_ctl.md R114). -/
def State.softReset (s : State) : State :=
  { s with arg := 0, argv := false, sav := false, ovr := false, result := 0, olen := 0, n := 0, argl := 0, avl := false,
           sp := 0, list := identityList }

/-- Hardware reset, at any time (70_reset_and_hazards.md R250): the state of `State.reset` for this instance, with
every memory unspecified. The parameters stay, and so does the record of the interface. -/
def State.hardReset (s : State) : State :=
  { State.reset with
    nmax := s.nmax, tieBreak := s.tieBreak, schedule := s.schedule, replies := s.replies, drawn := s.drawn }

end Sys2Proof.Machine
end

