-- ==== Sys2Proof/Machine/Operands.lean ====
section
/-! DEFINITION. The operands and messages of the commands: the operand checks in their order (60_exceptions.md R213),
the bytes a command reads and writes (20_memory.md R72), and the two addressing forms (20_memory.md R70, R71). -/

namespace Sys2Proof.Machine

/-- The operand ARGL as the unsigned number it is; "never sign-extended, scaled or shifted" (30_encoding.md R93). -/
def State.operand (s : State) : Nat := s.argl.toNat

/-- BCAP of this instance (00_scope.md R7). -/
def State.bcap (s : State) : Nat := Config.bcapOf s.nmax

/-- The first check that fails gives the cause; a row is (what is wrong, its cause) (60_exceptions.md R213). -/
def firstFailure (checks : List (Bool × Cause)) : Cause :=
  match checks with
  | [] => .none
  | (wrong, c) :: rest => if wrong then c else firstFailure rest

/-- The row of CSS.BUILD, BWT.TRANSFORM and BWT.INVERSE, up to its third check (60_exceptions.md R213). -/
def State.textChecks (s : State) : List (Bool × Cause) :=
  [(!s.avl, .absent), (s.operand == 0, .empty), (decide (s.nmax.toNat < s.operand), .capacity)]

/-- The row of CSS.LENGTH. -/
def State.lengthChecks (s : State) : List (Bool × Cause) := [(!s.sav, .nosa)]

/-- The row of CSS.INDEXAT. -/
def State.indexChecks (s : State) : List (Bool × Cause) :=
  [(!s.avl, .absent), (!s.sav, .nosa), (decide (s.n.toNat ≤ s.operand), .index)]

/-- The row of MTF.ENC1. -/
def State.symbolChecks (s : State) : List (Bool × Cause) :=
  [(!s.avl, .absent), (decide (Config.radix ≤ s.operand), .mtfsym)]

/-- The row of MTF.DEC1. -/
def State.positionChecks (s : State) : List (Bool × Cause) :=
  [(!s.avl, .absent), (decide (Config.radix ≤ s.operand), .mtfidx)]

/-- The row of MTF.ENCODE and MTF.DECODE. -/
def State.streamChecks (s : State) : List (Bool × Cause) :=
  [(!s.avl, .absent), (decide (s.bcap < s.operand), .capacity)]

/-- A command whose checks are `checks`: it fails with the first cause, else it goes on with `k`. -/
def State.checked (s : State) (checks : List (Bool × Cause)) (k : State → Host.Outcome State Fault Refusal) :
    Host.Outcome State Fault Refusal :=
  match firstFailure checks with
  | .none => k s
  | c => .next (s.fail c)

/-- A command that reads IBUF[base .. base+n-1]: with every byte written it goes on with the bytes, else the machine
stops, as 93_implementation_defined.md U1 says. -/
def State.withInput (s : State) (base n : Nat) (k : List Byte → Host.Outcome State Fault Refusal) :
    Host.Outcome State Fault Refusal :=
  match s.ibuf.readBlock base n with
  | some bytes => k bytes
  | none => .fault .unwrittenInput

/-- be32(b0, b1, b2, b3) = b0·2^24 + b1·2^16 + b2·2^8 + b3, unsigned (00_scope.md R12; 30_encoding.md R94). -/
def be32 (bytes : List Byte) : Nat := bytes.foldl (fun acc b => acc * 2 ^ 8 + b.toNat) 0

/-- The four bytes of `first` in OBUF[0..3], the most significant first (20_memory.md R63). -/
def be32Bytes (w : Word) : List Byte :=
  [w.extractLsb' 24 8, w.extractLsb' 16 8, w.extractLsb' 8 8, w.extractLsb' 0 8]

/-- Cyclic character addressing with its sentinel: charAt(off, d) = text[(off + d) mod n] for d < n, and -1 at d = n
(20_memory.md R70; 41_css.md R124). -/
def charAt (text : List Byte) (off d : Nat) : Int :=
  if d < text.length then ((symbolAt text ((off + d) % text.length)).toNat : Int) else -1

/-- Predecessor addressing: text[(a - 1 + n) mod n] (20_memory.md R71). -/
def predecessor (text : List Byte) (a : Nat) : Byte := symbolAt text ((a + text.length - 1) % text.length)

/-- A successful message-writing command: OBUF[0..|bytes|-1] <- bytes, OLEN <- |bytes|, every entry of OBUF from OLEN
upward unchanged (10_state.md R31, R37). -/
def State.writeMessage (s : State) (bytes : List Byte) : State :=
  { s with obuf := s.obuf.writePrefix bytes, olen := BitVec.ofNat 32 bytes.length }

end Sys2Proof.Machine
end

