-- ==== Sys2Proof/Machine/Css.lean ====
section
/-! DEFINITION. The CSS unit (41_css.md): the reference sort, the choice among equal rotations, and the meanings of
CSS.BUILD, CSS.LENGTH and CSS.INDEXAT. -/

namespace Sys2Proof.Machine

/-! ### The reference sort (41_css.md R124 to R128) -/

/-- A work item (lo, hi, d): the entries SA[lo..hi] agree in their first d characters (41_css.md R125). -/
structure WorkItem where
  lo : Nat
  hi : Nat
  d  : Nat
  deriving DecidableEq, Repr

/-- The work item as STACK holds it. -/
def WorkItem.entry (w : WorkItem) : StackEntry :=
  { lo := BitVec.ofNat 32 w.lo, hi := BitVec.ofNat 32 w.hi, d := BitVec.ofNat 32 w.d }

/-- `swap M[a], M[b]` (00_scope.md R12). -/
def swapEntries (sa : List Nat) (a b : Nat) : List Nat := (sa.set a (sa.getD b 0)).set b (sa.getD a 0)

/-- The partition in progress: SA and the cursors lt, gt, i (41_css.md R126). -/
structure Scan where
  sa : List Nat
  lt : Nat
  gt : Nat
  i  : Nat
  deriving DecidableEq, Repr

/-- One iteration of the scan, for the pivot character v at depth d (41_css.md R126). -/
def scanStep (text : List Byte) (d : Nat) (v : Int) (c : Scan) : Scan :=
  if charAt text (c.sa.getD c.i 0) d < v then
    { sa := swapEntries c.sa c.lt c.i, lt := c.lt + 1, gt := c.gt, i := c.i + 1 }
  else if v < charAt text (c.sa.getD c.i 0) d then
    { sa := swapEntries c.sa c.i c.gt, lt := c.lt, gt := c.gt - 1, i := c.i }
  else { sa := c.sa, lt := c.lt, gt := c.gt, i := c.i + 1 }

/-- `while i <= gt`, at most `fuel` times. Each iteration shortens SA[i..gt] by one. -/
def scan (text : List Byte) (d : Nat) (v : Int) (fuel : Nat) (c : Scan) : Scan :=
  match fuel with
  | 0 => c
  | fuel + 1 => if c.i ≤ c.gt then scan text d v fuel (scanStep text d v c) else c

/-- The sort in progress: SA, the work items on the stack (its top first), the physical contents of STACK, and the
cursors of the last partition. -/
structure SortRun where
  sa    : List Nat
  items : List WorkItem
  mem   : Memory StackEntry
  lt    : Nat
  gt    : Nat
  i     : Nat
  v     : Int
  deriving DecidableEq, Repr

/-- Push a work item (41_css.md R125, R127). DESIGN CHOICE (log 17), unsafe: it is written at STACK[SP], and SP grows by
one; 10_state.md R43 says only that SP = 0 is the empty stack. -/
def SortRun.push (r : SortRun) (w : WorkItem) : SortRun :=
  { r with items := w :: r.items, mem := r.mem.write r.items.length w.entry }

/-- Push a part only if it has at least two entries and `ok` holds (41_css.md R127). -/
def SortRun.pushPart (r : SortRun) (ok : Bool) (w : WorkItem) : SortRun :=
  if ok && decide (w.lo < w.hi) then r.push w else r

/-- The lesser part (lo, lt-1, d), if it is not empty. -/
def SortRun.pushLesser (r : SortRun) (w : WorkItem) (lt : Nat) : SortRun :=
  r.pushPart (decide (w.lo < lt)) { lo := w.lo, hi := lt - 1, d := w.d }

/-- The partition of a work item (41_css.md R126): pivot v = charAt(SA[lo], d), then the scan. -/
def partitionItem (text : List Byte) (sa : List Nat) (w : WorkItem) : Scan :=
  scan text w.d (charAt text (sa.getD w.lo 0) w.d) (w.hi - w.lo) { sa := sa, lt := w.lo, gt := w.hi, i := w.lo + 1 }

/-- One round (41_css.md R127): pop (the popped entry stays in STACK, log 17), partition, push the greater part, the equal part unless the pivot was the
sentinel, the lesser part. -/
def sortRound (text : List Byte) (r : SortRun) : SortRun :=
  match r.items with
  | [] => r
  | w :: rest =>
    let v := charAt text (r.sa.getD w.lo 0) w.d
    let c := partitionItem text r.sa w
    (((({ sa := c.sa, items := rest, mem := r.mem, lt := c.lt, gt := c.gt, i := c.i, v := v } : SortRun).pushPart
      true { lo := c.gt + 1, hi := w.hi, d := w.d }).pushPart
      (decide (0 ≤ v)) { lo := c.lt, hi := c.gt, d := w.d + 1 }).pushLesser w c.lt)

/-- Rounds until the stack is empty, at most `fuel` of them (41_css.md R125). -/
def sortRounds (text : List Byte) (fuel : Nat) (r : SortRun) : SortRun :=
  match fuel with
  | 0 => r
  | fuel + 1 =>
    match r.items with
    | [] => r
    | _ :: _ => sortRounds text fuel (sortRound text r)

/-- The start (41_css.md R125): SA[i] <- i, the stack empty, and (0, n-1, 0) pushed if n >= 2. -/
def sortStart (text : List Byte) (mem : Memory StackEntry) (cur : Cursors) : SortRun :=
  ({ sa := List.range text.length, items := [], mem := mem, lt := cur.sortLt.toNat, gt := cur.sortGt.toNat,
     i := cur.sortI.toNat, v := cur.sortV } : SortRun).pushPart true { lo := 0, hi := text.length - 1, d := 0 }

/-- A bound on the rounds of a text of length n: at each depth 0..n, every round fixes the place of its pivot's class
for that depth, so at most n rounds are made at each of n + 1 depths (41_css.md R132). -/
def roundBound (n : Nat) : Nat := n * (n + 1) + 1

/-- The whole reference sort, with what it leaves in STACK and in the cursors. -/
def runSort (text : List Byte) (mem : Memory StackEntry) (cur : Cursors) : SortRun :=
  sortRounds text (roundBound text.length) (sortStart text mem cur)

/-- RefSort, the default TIEBREAK (41_css.md R123 to R128). -/
def refSort (text : List Byte) : List Nat := (runSort text [] Cursors.reset).sa

/-! ### TIEBREAK -/

/-- TIEBREAK(text): the table's order where it gives one that is in Sorted(text), else RefSort's (41_css.md R123; log 3). -/
def chooseOrder (table : List (List Byte × List Nat)) (text : List Byte) (byRefSort : List Nat) : List Nat :=
  match table.lookup text with
  | some order => if Sorted text order then order else byRefSort
  | none => byRefSort

/-- TIEBREAK(text) of this instance. -/
def State.suffixOrder (s : State) (text : List Byte) : List Nat := chooseOrder s.tieBreak text (refSort text)

/-- The successful effect of CSS.BUILD on a text (41_css.md R122): SA[0..n-1] <- TIEBREAK(text), N <- n, SAV <- 1; the
entries of SA from n upward are left unspecified; the sorter's STACK, SP and cursors are what the reference sort leaves. -/
def State.buildSuffixArray (s : State) (text : List Byte) : State :=
  let r := runSort text s.stack s.cur
  { s with
    sa := Memory.block 0 ((s.suffixOrder text).map (BitVec.ofNat 32)),
    n := BitVec.ofNat 32 text.length, sav := true,
    stack := r.mem, sp := BitVec.ofNat 32 r.items.length,
    cur := { s.cur with sortLt := BitVec.ofNat 32 r.lt, sortGt := BitVec.ofNat 32 r.gt, sortI := BitVec.ofNat 32 r.i,
                        sortV := r.v } }

/-! ### The meanings -/

/-- CSS.BUILD (41_css.md R122). -/
def execCssBuild (s : State) : Host.Outcome State Fault Refusal :=
  s.checked s.textChecks fun s =>
    s.withInput 0 s.operand fun text => .next (s.buildSuffixArray text).succeed

/-- CSS.LENGTH (41_css.md R129). -/
def execCssLength (s : State) : Host.Outcome State Fault Refusal :=
  s.checked s.lengthChecks fun s => .next ({ s with result := s.n } : State).succeed

/-- RESULT <- SA[i] (41_css.md R130). An unlisted entry, which no run reaches, gives a free value
(93_implementation_defined.md U6; log 6). -/
def State.resultFromSa (s : State) (i : Nat) : State :=
  match s.sa.read i with
  | some v => { s with result := v }
  | none => { s.draw with result := Config.freeWord s.drawn }

/-- CSS.INDEXAT (41_css.md R130). -/
def execCssIndexat (s : State) : Host.Outcome State Fault Refusal :=
  s.checked s.indexChecks fun s => .next (s.resultFromSa s.operand).succeed

end Sys2Proof.Machine
end

