-- ==== Sys2Proof/Machine/Bwt.lean ====
section
/-! DEFINITION. The BWT unit (42_bwt.md): the read-out of the sorter's result, the four phases of the inverse, and the
meanings of BWT.TRANSFORM and BWT.INVERSE. -/

namespace Sys2Proof.Machine

/-! ### The read-out (42_bwt.md R151) -/

/-- T[i] = text[(SA[i] - 1 + n) mod n], the last column of the sorted rotation table. -/
def lastColumn (text : List Byte) (order : List Nat) : List Byte := order.map (predecessor text)

/-- `first`, the row i with SA[i] = 0. -/
def firstRow (order : List Nat) : Nat := order.idxOf 0

/-- The BWT message: `first`, 32 bits big-endian, then T (20_memory.md R63, R72). -/
def bwtMessage (text : List Byte) (order : List Nat) : List Byte :=
  be32Bytes (BitVec.ofNat 32 (firstRow order)) ++ lastColumn text order

/-- The successful effect of BWT.TRANSFORM on a text (42_bwt.md R150): exactly CSS.BUILD, then the message, OLEN <- n + 4,
RESULT <- first. -/
def State.writeTransform (s : State) (text : List Byte) : State :=
  let order := s.suffixOrder text
  let t := (s.buildSuffixArray text).writeMessage (bwtMessage text order)
  { t with result := BitVec.ofNat 32 (firstRow order),
           cur := { t.cur with transI := BitVec.ofNat 32 (text.length - 1) } }

/-- BWT.TRANSFORM (42_bwt.md R150). -/
def execBwtTransform (s : State) : Host.Outcome State Fault Refusal :=
  s.checked s.textChecks fun s =>
    s.withInput 0 s.operand fun text => .next (s.writeTransform text).succeed

/-! ### The inverse (42_bwt.md R156 to R159) -/

/-- Count phase (42_bwt.md R156): COUNT[c] <- 0 for c in 0..256, then COUNT[T[i] + 1] grows by one for each i. -/
def countPhase (column : List Byte) : List Nat :=
  column.foldl (fun count c => count.modify (c.toNat + 1) (· + 1)) (List.replicate (Config.radix + 1) 0)

/-- The running sum of `count`, with `acc` to the left of it. -/
def runningSum (acc : Nat) (count : List Nat) : List Nat :=
  match count with
  | [] => []
  | x :: rest => (acc + x) :: runningSum (acc + x) rest

/-- Prefix-sum phase (42_bwt.md R157): COUNT[r + 1] <- COUNT[r + 1] + COUNT[r] for r upward from 0. -/
def prefixSumPhase (count : List Nat) : List Nat := runningSum 0 count

/-- COUNT, NEXT and SORTED while the scatter runs. -/
structure Tables where
  count  : List Nat
  next   : List Nat
  sorted : List Byte
  deriving DecidableEq, Repr

/-- One step of the scatter, for T[i] = c (42_bwt.md R158). -/
def scatterStep (t : Tables) (i : Nat) (c : Byte) : Tables :=
  let slot := t.count.getD c.toNat 0
  { count := t.count.set c.toNat (slot + 1), next := t.next.set slot i, sorted := t.sorted.set slot c }

/-- The scatter over the rest of T, the first of whose symbols is T[i]. -/
def scatterFrom (t : Tables) (i : Nat) (column : List Byte) : Tables :=
  match column with
  | [] => t
  | c :: rest => scatterFrom (scatterStep t i c) (i + 1) rest

/-- Count, prefix sum and scatter (42_bwt.md R156 to R158). NEXT[0..n-1] and SORTED[0..n-1] are written before they are
read, so what they start from does not matter. -/
def inverseTables (column : List Byte) : Tables :=
  scatterFrom { count := prefixSumPhase (countPhase column), next := List.replicate column.length 0,
                sorted := List.replicate column.length 0 } 0 column

/-- Walk phase (42_bwt.md R159): n times, emit SORTED[ROW], then ROW <- NEXT[ROW]; the bytes and the last ROW. -/
def walk (t : Tables) (n row : Nat) : List Byte × Nat :=
  match n with
  | 0 => ([], row)
  | n + 1 =>
    let rest := walk t n (t.next.getD row 0)
    (t.sorted.getD row 0 :: rest.1, rest.2)

/-- The text that BWT.INVERSE rebuilds from `first` and T. -/
def inverseText (first : Nat) (column : List Byte) : List Byte :=
  (walk (inverseTables column) column.length first).1

/-- The successful effect of BWT.INVERSE (42_bwt.md R154): COUNT, NEXT, SORTED, the message and the counters. -/
def State.writeInverse (s : State) (first : Nat) (column : List Byte) : State :=
  let t := inverseTables column
  let out := walk t column.length first
  let last := BitVec.ofNat 32 (column.length - 1)
  { s.writeMessage out.1 with
    count := s.count.writePrefix (t.count.map (BitVec.ofNat 32)),
    next := s.next.writePrefix (t.next.map (BitVec.ofNat 32)),
    sorted := s.sorted.writePrefix t.sorted,
    cur := { s.cur with invI := last, invR := BitVec.ofNat 32 (Config.radix - 1), invK := last,
                        row := BitVec.ofNat 32 out.2 } }

/-- BWT.INVERSE (42_bwt.md R154). The last check, first >= n, reads IBUF[0..3] only. -/
def execBwtInverse (s : State) : Host.Outcome State Fault Refusal :=
  s.checked s.textChecks fun s =>
    s.withInput 0 4 fun head =>
      s.checked [(decide (s.operand ≤ be32 head), .first)] fun s =>
        s.withInput 4 s.operand fun column => .next (s.writeInverse (be32 head) column).succeed

end Sys2Proof.Machine
end

