-- ==== Sys2Proof/Machine/Ctl.lean ====
section
/-! DEFINITION. The meanings of CTL.NOP and CTL.RESET (40_ctl.md). A meaning is the COMPLETION of the command in a
state whose latches hold it (40_ctl.md R111); its issue is `State.issue`. -/

namespace Sys2Proof.Machine

/-- CTL.NOP (40_ctl.md R113): nothing but completion. -/
def execCtlNop (s : State) : Host.Outcome State Fault Refusal := .next s.succeed

/-- CTL.RESET (40_ctl.md R114): the reset values of registers, flags and LIST; IBUF, OBUF and CMDL keep theirs. -/
def execCtlReset (s : State) : Host.Outcome State Fault Refusal := .next s.softReset.succeed

end Sys2Proof.Machine
end

