-- ==== Sys2Proof/Machine/Mtf.lean ====
section
/-! DEFINITION. The MTF unit (43_mtf.md): the three functions of the recency list and the meanings of the five MTF
commands. -/

namespace Sys2Proof.Machine

/-! ### The recency list (43_mtf.md R181 to R183) -/

/-- LIST[j] <- LIST[j - 1] for j in p downto 1, then LIST[0] <- c: the entries before p shift right by one, those after
p stay. -/
def moveToFront (p : Nat) (c : Byte) (list : List Byte) : List Byte := c :: (list.take p ++ list.drop (p + 1))

/-- encstep(c) (43_mtf.md R182): the position of c, and the list with c moved to the front. -/
def encStep (c : Byte) (list : List Byte) : Nat × List Byte :=
  let p := list.idxOf c
  (p, moveToFront p c list)

/-- decstep(k) (43_mtf.md R183): the symbol at position k, and the list with it moved to the front. -/
def decStep (k : Nat) (list : List Byte) : Byte × List Byte :=
  let c := list.getD k 0
  (c, moveToFront k c list)

/-- The encode pass over the symbols `input` from `list`: the indices, one byte each, and the last list. -/
def encodeStream (list input : List Byte) : List Byte × List Byte :=
  match input with
  | [] => ([], list)
  | c :: rest =>
    let step := encStep c list
    let out := encodeStream step.2 rest
    (BitVec.ofNat 8 step.1 :: out.1, out.2)

/-- The decode pass over the indices `input` from `list`: the symbols and the last list. -/
def decodeStream (list input : List Byte) : List Byte × List Byte :=
  match input with
  | [] => ([], list)
  | k :: rest =>
    let step := decStep k.toNat list
    let out := decodeStream step.2 rest
    (step.1 :: out.1, out.2)

/-! ### The meanings -/

/-- MTF.INIT (43_mtf.md R184). -/
def execMtfInit (s : State) : Host.Outcome State Fault Refusal :=
  .next ({ s with list := identityList } : State).succeed

/-- The successful effect of MTF.ENC1 (43_mtf.md R185): RESULT <- zext_32(encstep(c)). -/
def State.encodeOne (s : State) (c : Byte) : State :=
  let step := encStep c s.list
  { s with list := step.2, result := BitVec.ofNat 32 step.1,
           cur := { s.cur with mtfP := BitVec.ofNat 32 step.1, mtfC := c } }

/-- MTF.ENC1 (43_mtf.md R185). -/
def execMtfEnc1 (s : State) : Host.Outcome State Fault Refusal :=
  s.checked s.symbolChecks fun s => .next (s.encodeOne (BitVec.ofNat 8 s.operand)).succeed

/-- The successful effect of MTF.DEC1 (43_mtf.md R186): RESULT <- zext_32(decstep(k)). -/
def State.decodeOne (s : State) (k : Nat) : State :=
  let step := decStep k s.list
  { s with list := step.2, result := step.1.setWidth 32,
           cur := { s.cur with mtfP := BitVec.ofNat 32 k, mtfC := step.1 } }

/-- MTF.DEC1 (43_mtf.md R186). -/
def execMtfDec1 (s : State) : Host.Outcome State Fault Refusal :=
  s.checked s.positionChecks fun s => .next (s.decodeOne s.operand).succeed

/-- The counters a pass leaves: j, p and c of its last step; a pass over nothing leaves them alone (log 5). -/
def Cursors.afterPass (cur : Cursors) (symbols positions : List Byte) : Cursors :=
  match symbols.getLast?, positions.getLast? with
  | some c, some p =>
    { cur with mtfJ := BitVec.ofNat 32 (symbols.length - 1), mtfP := p.setWidth 32, mtfC := c }
  | _, _ => cur

/-- The successful effect of MTF.ENCODE (43_mtf.md R187): init(), the pass, OLEN <- n. -/
def State.encodeMessage (s : State) (input : List Byte) : State :=
  let out := encodeStream identityList input
  { s.writeMessage out.1 with list := out.2, cur := s.cur.afterPass input out.1 }

/-- MTF.ENCODE (43_mtf.md R187). -/
def execMtfEncode (s : State) : Host.Outcome State Fault Refusal :=
  s.checked s.streamChecks fun s =>
    s.withInput 0 s.operand fun input => .next (s.encodeMessage input).succeed

/-- The successful effect of MTF.DECODE (43_mtf.md R188): init(), the pass, OLEN <- n. -/
def State.decodeMessage (s : State) (input : List Byte) : State :=
  let out := decodeStream identityList input
  { s.writeMessage out.1 with list := out.2, cur := s.cur.afterPass out.1 input }

/-- MTF.DECODE (43_mtf.md R188). -/
def execMtfDecode (s : State) : Host.Outcome State Fault Refusal :=
  s.checked s.streamChecks fun s =>
    s.withInput 0 s.operand fun input => .next (s.decodeMessage input).succeed

end Sys2Proof.Machine
end

