-- ==== Sys2Proof/Machine/Dispatch.lean ====
section
/-! DEFINITION. The meaning of each command: its completion in a state whose latches hold it (40_ctl.md R111). -/

namespace Sys2Proof.Machine

def exec (i : Instr) (s : State) : Host.Outcome State Fault Refusal :=
  match i with
  | .ctlNop => Sys2Proof.Machine.execCtlNop s
  | .ctlReset => Sys2Proof.Machine.execCtlReset s
  | .cssBuild => Sys2Proof.Machine.execCssBuild s
  | .cssLength => Sys2Proof.Machine.execCssLength s
  | .cssIndexat => Sys2Proof.Machine.execCssIndexat s
  | .bwtTransform => Sys2Proof.Machine.execBwtTransform s
  | .bwtInverse => Sys2Proof.Machine.execBwtInverse s
  | .mtfInit => Sys2Proof.Machine.execMtfInit s
  | .mtfEnc1 => Sys2Proof.Machine.execMtfEnc1 s
  | .mtfDec1 => Sys2Proof.Machine.execMtfDec1 s
  | .mtfEncode => Sys2Proof.Machine.execMtfEncode s
  | .mtfDecode => Sys2Proof.Machine.execMtfDecode s

end Sys2Proof.Machine
end

