-- ==== Sys2Proof/Machine/HostPort.lean ====
section
/-! DEFINITION. The host's five primitives (20_memory.md R61), idle and busy (20_memory.md R62), and the refusal of an
index outside a space (20_memory.md R69). -/

namespace Sys2Proof.Machine

/-- A reply whose value the spec leaves open: the next free word. -/
def State.replyFreeWord (s : State) : State := s.draw.reply (.word (Config.freeWord s.drawn))

/-- A reply whose value the spec leaves open: the next free byte. -/
def State.replyFreeByte (s : State) : State := s.draw.reply (.byte (Config.freeByte s.drawn))

/-- RegRead(k) (10_state.md R21 to R24, R30 to R32): CMD and the reserved registers read 0; while BUSY = 1 RESULT and
OLEN read unspecified values and every other register its true one (20_memory.md R62). -/
def State.regRead (s : State) (k : Nat) : State :=
  match k with
  | 1 => s.reply (.word s.arg)
  | 2 => s.reply (.word s.status)
  | 3 => if s.busy then s.replyFreeWord else s.reply (.word s.result)
  | 4 => if s.busy then s.replyFreeWord else s.reply (.word s.olen)
  | 5 => s.reply (.word s.nmax)
  | _ => s.reply (.word 0)

/-- RegWrite(k, v): a write of CMD issues v (40_ctl.md R110), a write of ARG sets ARG and ARGV (10_state.md R23), both
dropped while BUSY = 1; a write of any other register is ignored, busy or idle (10_state.md R21, R24, R32; 20_memory.md R62). -/
def State.regWrite (s : State) (k : Nat) (v : Word) : State :=
  match k with
  | 0 => if s.busy then s.overrun else s.issue v
  | 1 => if s.busy then s.overrun else { s with arg := v, argv := true }
  | _ => s

/-- IbufWrite(j, b), dropped while BUSY = 1 (20_memory.md R62, R67). -/
def State.ibufWrite (s : State) (j : Nat) (b : Byte) : State :=
  if s.busy then s.overrun else { s with ibuf := s.ibuf.write j b }

/-- IbufRead(j): the true byte, busy or idle; a byte never written reads as any value (20_memory.md R62, R76). -/
def State.ibufRead (s : State) (j : Nat) : State :=
  match s.ibuf.read j with
  | some b => s.reply (.byte b)
  | none => s.replyFreeByte

/-- ObufRead(j): any value while BUSY = 1, and any value for a byte never written (20_memory.md R62, R76). -/
def State.obufRead (s : State) (j : Nat) : State :=
  if s.busy then s.replyFreeByte
  else
    match s.obuf.read j with
    | some b => s.reply (.byte b)
    | none => s.replyFreeByte

/-- What a primitive with an index in its space does. -/
def State.perform (s : State) (m : HostMove) : State :=
  match m with
  | .regRead k     => s.regRead k
  | .regWrite k v  => s.regWrite k v
  | .ibufWrite j b => s.ibufWrite j b
  | .ibufRead j    => s.ibufRead j
  | .obufRead j    => s.obufRead j

/-- A move of the host; one with an index outside its space is no move, and is refused (20_memory.md R69). -/
def hostMove (m : HostMove) (s : State) : Host.Outcome State Fault Refusal :=
  if m.wf s.bcap then .next (s.perform m) else .refused (.noSuchLocation m)

end Sys2Proof.Machine
end

