-- ==== Sys2Proof/Machine/Step.lean ====
section
/-! DEFINITION. One step: the next event of the total order of 20_memory.md R73. The block fetches nothing
(20_memory.md R75); the command in execution is the one CMDL holds while BUSY = 1. -/

namespace Sys2Proof.Machine

/-- The completion of the command in CMDL (40_ctl.md R111); an illegal word completes with E_ILLEGAL (30_encoding.md R95). -/
def complete (s : State) : Host.Outcome State Fault Refusal :=
  match decode s.cmdl with
  | .instr i => exec i s
  | .illegal _ => .next (s.fail .illegal)

/-- The sequencer's turn: a busy block completes its command, an idle one does nothing (10_state.md R25). -/
def sequencerTurn (s : State) : Host.Outcome State Fault Refusal := if s.busy then complete s else .next s

/-- The next event happens. With nothing scheduled the turn is the sequencer's, since every issued command completes
(70_reset_and_hazards.md R262; log 1). -/
def step (s : State) : Host.Outcome State Fault Refusal :=
  match s.schedule with
  | [] => sequencerTurn s
  | .sequencer :: rest => sequencerTurn { s with schedule := rest }
  | .hardReset :: rest => .next ({ s with schedule := rest } : State).hardReset
  | .host m :: rest => hostMove m { s with schedule := rest }

/-- The state in which the very next step runs the command word w: w has just been issued (40_ctl.md R110), and the
sequencer's turn comes first. The bits of w above nbits are 0. -/
def State.withFetchWord (s : State) (nbits w : Nat) : State :=
  { s.issue (BitVec.ofNat 32 (w % 2 ^ nbits)) with schedule := .sequencer :: s.schedule }

end Sys2Proof.Machine
end

