-- ==== Sys2Proof/Machine/Script.lean ====
section
/-! DEFINITION. The host script language (30_encoding.md R97 to R99): each line is a sequence of host primitives, and
WAIT lets the sequencer complete the command in execution. -/

namespace Sys2Proof.Machine

/-- Go on from a next state; a stop stays a stop. -/
def andThen (o : Host.Outcome State Fault Refusal) (k : State → Host.Outcome State Fault Refusal) :
    Host.Outcome State Fault Refusal :=
  match o with
  | .next s => k s
  | .fault r => .fault r
  | .refused r => .refused r

/-- The event e comes next. -/
def happen (e : Event) (s : State) : Host.Outcome State Fault Refusal := step { s with schedule := e :: s.schedule }

/-- The events happen, one after the other. -/
def happenAll (es : List Event) (s : State) : Host.Outcome State Fault Refusal :=
  match es with
  | [] => .next s
  | e :: rest => andThen (happen e s) (happenAll rest)

/-- `WAIT`: RegRead(2) until bit 0 is 0 (R99), with one read that finds the block busy before its completion. -/
def waitDone (s : State) : Host.Outcome State Fault Refusal :=
  if s.busy then happenAll [.host (.regRead 2), .sequencer, .host (.regRead 2)] s else happen (.host (.regRead 2)) s

/-- The writes of a command line: the operand to ARG if the line has one, then the word to CMD (R97, R98). -/
def commandWrites (i : Instr) (operand : Option Word) : List HostMove :=
  match operand with
  | some v => [.regWrite 1 v, .regWrite 0 (encode i)]
  | none => [.regWrite 0 (encode i)]

/-- `PUT j, b0 ... bm`: one IbufWrite a byte, at j, j + 1, ... (R99). -/
def putWrites (j : Nat) (bytes : List Byte) : List HostMove :=
  match bytes with
  | [] => []
  | b :: rest => .ibufWrite j b :: putWrites (j + 1) rest

/-- The byte the host's last read returned. -/
def lastByte (s : State) : Byte :=
  match s.replies with
  | .byte b :: _ => b
  | _ => 0

/-- The word the host's last read returned. -/
def lastWord (s : State) : Word :=
  match s.replies with
  | .word v :: _ => v
  | _ => 0

/-- `XFER len`: IbufWrite(j, ObufRead(j)) for j in 0..len-1 (R99), counting `todo` bytes on from j. -/
def transfer (todo j : Nat) (s : State) : Host.Outcome State Fault Refusal :=
  match todo with
  | 0 => .next s
  | todo + 1 =>
    andThen (happen (.host (.obufRead j)) s) fun s =>
      andThen (happen (.host (.ibufWrite j (lastByte s))) s) (transfer todo (j + 1))

/-- One line of a script. -/
def runLine (line : ScriptLine) (s : State) : Host.Outcome State Fault Refusal :=
  match line with
  | .command i operand => andThen (happenAll ((commandWrites i operand).map .host) s) waitDone
  | .rawWord w => andThen (happen (.host (.regWrite 0 w)) s) waitDone
  | .wait => waitDone s
  | .arg v => happen (.host (.regWrite 1 v)) s
  | .put j bytes => happenAll ((putWrites j bytes).map .host) s
  | .xfer (some len) => transfer len 0 s
  | .xfer none => andThen (happen (.host (.regRead 4)) s) fun s => transfer (lastWord s).toNat 0 s
  | .get k => happen (.host (.regRead k)) s
  | .out a b => happenAll ((List.range' a (b + 1 - a)).map fun j => .host (.obufRead j)) s

/-- A script, line by line. -/
def runScript (lines : List ScriptLine) (s : State) : Host.Outcome State Fault Refusal :=
  match lines with
  | [] => .next s
  | line :: rest => andThen (runLine line s) (runScript rest)

end Sys2Proof.Machine
end

