-- ==== Sys2Proof/Safety.lean ====
section
/-! DEFINITION. What a safe run is: the invariants of the block's state, and the condition under which the command in
execution completes. -/

namespace Sys2Proof.Machine

/-- Every entry listed lies below `size`, and the form is canonical. -/
def Memory.Fits {α : Type} (m : Memory α) (size : Nat) : Prop := m.wf ∧ ∀ e ∈ m, e.1 < size

/-- What holds between any two events (10_state.md). -/
structure State.Inv (s : State) : Prop where
  /-- 1 <= NMAX <= 2^31 - 5 (00_scope.md R7) -/
  nmax_legal : legalNmax s.nmax = true
  /-- BUSY and DONE are never both 1 (R26) -/
  busy_not_done : s.busy = true → s.done = false
  /-- the issue cleared ERR (R27) -/
  busy_no_error : s.busy = true → s.err = false
  /-- ERRCODE is never 0 when ERR = 1 and never non-zero when ERR = 0 (R27) -/
  report : s.err = true ↔ s.cause ≠ .none
  /-- an error is reported at a completion (R26, R27) -/
  error_done : s.err = true → s.done = true
  /-- ARG does not change while a command is busy (20_memory.md R62) -/
  operand_latched : s.busy = true → s.argl = s.arg
  /-- the issue of a command that takes an operand cleared ARGV (R23) -/
  operand_used : s.busy = true → consumesOperand s.cmdl = true → s.argv = false
  /-- IBUF is BCAP bytes (R36) -/
  ibuf_fits : s.ibuf.Fits s.bcap
  /-- OBUF is BCAP bytes (R37) -/
  obuf_fits : s.obuf.Fits s.bcap
  /-- SA is NMAX entries (R38) -/
  sa_fits : s.sa.Fits s.nmax.toNat
  /-- NEXT is NMAX entries (R39) -/
  next_fits : s.next.Fits s.nmax.toNat
  /-- SORTED is NMAX entries (R40) -/
  sorted_fits : s.sorted.Fits s.nmax.toNat
  /-- COUNT is 257 entries (R41) -/
  count_fits : s.count.Fits (Config.radix + 1)
  /-- LIST holds each of the 256 symbols exactly once (R42) -/
  list_permutation : s.list.Perm identityList
  /-- while SAV = 1, 1 <= N <= NMAX and SA[0..N-1] is a permutation of 0..N-1 (R34, R38) -/
  suffix_array : s.sav = true → 1 ≤ s.n.toNat ∧ s.n.toNat ≤ s.nmax.toNat ∧
    ∃ order : List Nat, order.Perm (List.range s.n.toNat) ∧
      s.sa.readBlock 0 s.n.toNat = some (order.map (BitVec.ofNat 32))
  /-- N is written only together with SAV (R34) -/
  no_suffix_array : s.sav = false → s.n = 0
  /-- OBUF[0..OLEN-1] was written by the last message-writing command (R31) -/
  message : s.olen.toNat ≤ s.bcap ∧ (s.obuf.readBlock 0 s.olen.toNat).isSome = true

/-- What holds of the sorter's hidden state between any two events (10_state.md R43): the stack is empty, and STACK is
STKCAP entries. -/
structure State.SorterInv (s : State) : Prop where
  stack_empty : s.sp = 0
  stack_fits : s.stack.Fits (Config.stkcapOf s.nmax)

/-- How many bytes of IBUF the message of a command covers (20_memory.md R72). -/
def messageSpan (i : Instr) (s : State) : Nat :=
  match i with
  | .ctlNop       => 0
  | .ctlReset     => 0
  | .cssBuild     => s.operand
  | .cssLength    => 0
  | .cssIndexat   => 0
  | .bwtTransform => s.operand
  | .bwtInverse   => s.operand + 4
  | .mtfInit      => 0
  | .mtfEnc1      => 0
  | .mtfDec1      => 0
  | .mtfEncode    => s.operand
  | .mtfDecode    => s.operand

/-- The host has written every byte of the message (70_reset_and_hazards.md R252 (a)). -/
def State.MessageWritten (s : State) (i : Instr) : Prop := ∀ j < messageSpan i s, (s.ibuf.read j).isSome = true

end Sys2Proof.Machine
end

