-- ==== Sys2Proof/Certificates/Slice0/Obligations.lean ====
section
/-! DEFINITION. The statements about the block, each with the rule of the spec it formalises. `exec i s` is the
completion of command i in the state s whose latches hold it (40_ctl.md R111); `complete s` is the completion of the word
in CMDL, command or not. -/

open Sys2Proof Sys2Proof.Machine

/-- s after a completion that succeeded and wrote nothing else: BUSY <- 0, DONE <- 1, ERR = 0, ERRCODE = 0 (40_ctl.md R111). -/
abbrev Sys2Proof.Machine.State.completed (s : State) : State :=
  { s with busy := false, done := true, err := false, cause := .none }

/-- s after a completion that failed with cause c: BUSY <- 0, DONE <- 1, ERR <- 1, ERRCODE <- c (60_exceptions.md R215). -/
abbrev Sys2Proof.Machine.State.failedWith (s : State) (c : Cause) : State :=
  { s with busy := false, done := true, err := true, cause := c }

/-- s after the issue of the word w: the latches, ARGV, BUSY and the cleared report (40_ctl.md R110). -/
abbrev Sys2Proof.Machine.State.issued (s : State) (w : Word) : State :=
  { s with cmdl := w, argl := s.arg, avl := s.argv,
           argv := if w ∈ ([0x10, 0x12, 0x20, 0x21, 0x31, 0x32, 0x33, 0x34] : List Word) then false else s.argv,
           busy := true, done := false, err := false, cause := .none }

/-- Two outcomes of the same kind, their next states related by R. -/
def Sys2Proof.Machine.OutcomesRelated (R : State → State → Prop) (o o' : Host.Outcome State Fault Refusal) : Prop :=
  match o, o' with
  | .next a, .next b => R a b
  | .fault f, .fault g => f = g
  | .refused f, .refused g => f = g
  | _, _ => False

/-- One step command after the other, each with the next value as its operand: the values RESULT takes, and the last state. -/
def Sys2Proof.Machine.stepMode (i : Instr) (input : List Byte) (s : State) : Option (List Word × State) :=
  match input with
  | [] => some ([], s)
  | c :: rest =>
    match exec i { s with argl := c.setWidth 32, avl := true } with
    | .next t => (stepMode i rest t).map fun out => (t.result :: out.1, out.2)
    | _ => none

/-! ### Encoding -/

/-- 30_encoding.md R92: a word decodes to a command exactly when it equals the command's match value, and the table's
twelve match values, with the commands that take an operand in ARG. -/
def Obligations.WordIsACommandExactlyWhenItMatches : Prop :=
  (∀ (w : Word) (i : Instr), decode w = .instr i ↔ w = encode i) ∧
  ∀ row ∈ ([(.ctlNop, 0x00000000, false), (.ctlReset, 0x00000001, false), (.cssBuild, 0x00000010, true),
            (.cssLength, 0x00000011, false), (.cssIndexat, 0x00000012, true), (.bwtTransform, 0x00000020, true),
            (.bwtInverse, 0x00000021, true), (.mtfInit, 0x00000030, false), (.mtfEnc1, 0x00000031, true),
            (.mtfDec1, 0x00000032, true), (.mtfEncode, 0x00000033, true), (.mtfDecode, 0x00000034, true)] :
            List (Instr × Word × Bool)), encode row.1 = row.2.1 ∧ takesOperand row.1 = row.2.2

/-- 30_encoding.md R95: which words are illegal, and what an illegal word does: issued while BUSY = 0 it latches, and its
completion fails with E_ILLEGAL and changes nothing else, ARGV among what stays. -/
def Obligations.IllegalWordFailsAndChangesNothingElse : Prop :=
  (∀ w : Word, (∀ i, decode w ≠ .instr i) ↔
    256 ≤ w.toNat ∨ (w.toNat / 16 = 0 ∧ 2 ≤ w.toNat % 16) ∨ (w.toNat / 16 = 1 ∧ 3 ≤ w.toNat % 16) ∨
      (w.toNat / 16 = 2 ∧ 2 ≤ w.toNat % 16) ∨ (w.toNat / 16 = 3 ∧ 5 ≤ w.toNat % 16) ∨ 4 ≤ w.toNat / 16) ∧
  ∀ (s : State) (w : Word), s.busy = false → (∀ i, decode w ≠ .instr i) →
    ∃ t, hostMove (.regWrite 0 w) s = .next t ∧
      complete t = .next { s with cmdl := w, argl := s.arg, avl := s.argv,
                                  busy := false, done := true, err := true, cause := .illegal }

/-- Sample words of 95_test_vectors.md V2, legal and illegal. -/
def Obligations.SampleWordsDecode : Prop :=
  decode 0x00000000 = .instr .ctlNop ∧ decode 0x00000001 = .instr .ctlReset ∧ decode 0x00000010 = .instr .cssBuild ∧
  decode 0x00000021 = .instr .bwtInverse ∧ decode 0x00000034 = .instr .mtfDecode ∧
  (∀ w ∈ ([0x00000002, 0x00000013, 0x00000022, 0x00000035, 0x00000040, 0x00000110, 0x80000000, 0xFFFFFFFF] : List Word),
    (decode w).instr? = none)

/-! ### Steps, issue and the host port -/

/-- When the sequencer's turn is next and CMDL holds the command i of a busy block, the step is exec of i, with the
scheduled turn used up (40_ctl.md R111; 10_state.md R35); an illegal word in CMDL completes with E_ILLEGAL there (30_encoding.md
R95); what a step is at every other event (20_memory.md R73). That the events to come stand in the state, and that a busy block with none of them completes, is the model's choice (log 1). -/
def Obligations.StepRunsTheLatchedCommand : Prop :=
  (∀ (s : State) (i : Instr), s.busy = true → decode s.cmdl = .instr i →
    (s.schedule = [] → step s = exec i s) ∧
    (∀ rest, s.schedule = .sequencer :: rest → step s = exec i { s with schedule := rest })) ∧
  (∀ s : State, s.busy = true → (∀ i, decode s.cmdl ≠ .instr i) →
    (s.schedule = [] → step s = .next (s.failedWith .illegal)) ∧
    (∀ rest, s.schedule = .sequencer :: rest → step s = .next (({ s with schedule := rest } : State).failedWith .illegal))) ∧
  (∀ s : State, s.busy = false →
    (s.schedule = [] → step s = .next s) ∧
    (∀ rest, s.schedule = .sequencer :: rest → step s = .next { s with schedule := rest })) ∧
  ∀ (s : State) (rest : List Event),
    (∀ m, s.schedule = .host m :: rest → step s = hostMove m { s with schedule := rest }) ∧
    (s.schedule = .hardReset :: rest → step s = .next ({ s with schedule := rest } : State).hardReset)

/-- The command placed where the block takes its next command runs next: it is issued from s, then completed. -/
def Obligations.FetchedWordRunsNext : Prop :=
  ∀ (s : State) (i : Instr), step (s.withFetchWord 32 (encode i).toNat) = exec i (s.issued (encode i))

/-- 40_ctl.md R110: a write of CMD while BUSY = 0 issues the word, whatever it is; while BUSY = 1 it is dropped and sets OVR. -/
def Obligations.CommandWriteIssuesOrIsDropped : Prop :=
  ∀ (s : State) (w : Word),
    (s.busy = false → hostMove (.regWrite 0 w) s = .next (s.issued w)) ∧
    (s.busy = true → hostMove (.regWrite 0 w) s = .next { s with ovr := true })

/-- Every access of the host while BUSY = 1 (20_memory.md R62; 10_state.md R21, R22). An unspecified value is a free one, of
which nothing is said, and that the counter drawn numbers it is the model's choice (20_memory.md R76; log 6). -/
def Obligations.BusyAccessesReadTrueOrAreDropped : Prop :=
  ∀ s : State, s.busy = true →
    hostMove (.regRead 2) s = .next { s with replies := .word s.status :: s.replies } ∧
    hostMove (.regRead 1) s = .next { s with replies := .word s.arg :: s.replies } ∧
    hostMove (.regRead 5) s = .next { s with replies := .word s.nmax :: s.replies } ∧
    (∀ k, k = 0 ∨ k = 6 ∨ k = 7 → hostMove (.regRead k) s = .next { s with replies := .word 0 :: s.replies }) ∧
    (∀ j b, j < s.bcap → s.ibuf.read j = some b →
      hostMove (.ibufRead j) s = .next { s with replies := .byte b :: s.replies }) ∧
    (∀ j, j < s.bcap → s.ibuf.read j = none → ∃ b, hostMove (.ibufRead j) s =
      .next { s with replies := .byte b :: s.replies, drawn := s.drawn + 1 }) ∧
    (∀ k, k = 3 ∨ k = 4 → ∃ v, hostMove (.regRead k) s =
      .next { s with replies := .word v :: s.replies, drawn := s.drawn + 1 }) ∧
    (∀ j, j < s.bcap → ∃ b, hostMove (.obufRead j) s =
      .next { s with replies := .byte b :: s.replies, drawn := s.drawn + 1 }) ∧
    (∀ v, hostMove (.regWrite 0 v) s = .next { s with ovr := true }) ∧
    (∀ v, hostMove (.regWrite 1 v) s = .next { s with ovr := true }) ∧
    (∀ j b, j < s.bcap → hostMove (.ibufWrite j b) s = .next { s with ovr := true }) ∧
    (∀ k v, 2 ≤ k → k < 8 → hostMove (.regWrite k v) s = .next s)

/-- Every access of the host while BUSY = 0 but the writes of CMD and IBUF: the registers the block shows, the write of ARG, the
writes it ignores (10_state.md R21 to R24, R30 to R32), and the bytes of both buffers (20_memory.md R61, R73). A byte never
written reads as some value (20_memory.md R76), which the counter drawn numbers: the model's choice (log 6). -/
def Obligations.IdleAccesses : Prop :=
  ∀ s : State, s.busy = false →
    (∀ row ∈ [(0, (0 : Word)), (1, s.arg), (2, s.status), (3, s.result), (4, s.olen), (5, s.nmax), (6, 0), (7, 0)],
      hostMove (.regRead row.1) s = .next { s with replies := .word row.2 :: s.replies }) ∧
    (∀ v, hostMove (.regWrite 1 v) s = .next { s with arg := v, argv := true }) ∧
    (∀ k v, 2 ≤ k → k < 8 → hostMove (.regWrite k v) s = .next s) ∧
    ∀ j, j < s.bcap →
      (∀ b, s.ibuf.read j = some b → hostMove (.ibufRead j) s = .next { s with replies := .byte b :: s.replies }) ∧
      (∀ b, s.obuf.read j = some b → hostMove (.obufRead j) s = .next { s with replies := .byte b :: s.replies }) ∧
      (s.ibuf.read j = none → ∃ b, hostMove (.ibufRead j) s =
        .next { s with replies := .byte b :: s.replies, drawn := s.drawn + 1 }) ∧
      (s.obuf.read j = none → ∃ b, hostMove (.obufRead j) s =
        .next { s with replies := .byte b :: s.replies, drawn := s.drawn + 1 })

/-- 20_memory.md R67: reads have no side effect, and the three writes that do more than store a value; an IbufWrite
with BUSY = 0 only stores its byte and is idempotent. -/
def Obligations.OnlyThreeWritesHaveSideEffects : Prop :=
  ∀ s : State,
    (∀ m : HostMove, m.wf s.bcap = true → (∀ k v, m ≠ .regWrite k v) → (∀ j b, m ≠ .ibufWrite j b) →
      ∃ r d, hostMove m s = .next { s with replies := r :: s.replies, drawn := d }) ∧
    (∀ v, s.busy = false → hostMove (.regWrite 0 v) s = .next (s.issued v)) ∧
    (∀ v, s.busy = false → hostMove (.regWrite 1 v) s = .next { s with arg := v, argv := true }) ∧
    (∀ k v, 2 ≤ k → k < 8 → hostMove (.regWrite k v) s = .next s) ∧
    (∀ m : HostMove, m.wf s.bcap = true → s.busy = true →
      ((∃ v, m = .regWrite 0 v) ∨ (∃ v, m = .regWrite 1 v) ∨ (∃ j b, m = .ibufWrite j b)) →
      hostMove m s = .next { s with ovr := true }) ∧
    (∀ j b, j < s.bcap → s.busy = false → ∃ t, hostMove (.ibufWrite j b) s = .next t ∧ t = { s with ibuf := t.ibuf } ∧
      t.ibuf.read j = some b ∧ (∀ k, k ≠ j → t.ibuf.read k = s.ibuf.read k) ∧ hostMove (.ibufWrite j b) t = .next t)

/-- An index outside its space is no move of the host: the model refuses it and the block does nothing (20_memory.md R69). -/
def Obligations.MoveOutsideItsSpaceIsRefused : Prop :=
  ∀ (s : State) (rest : List Event) (m : HostMove), s.schedule = .host m :: rest →
    ((∃ k v, 8 ≤ k ∧ (m = .regRead k ∨ m = .regWrite k v)) ∨
      (∃ j b, s.nmax.toNat + 4 ≤ j ∧ (m = .ibufWrite j b ∨ m = .ibufRead j ∨ m = .obufRead j))) →
    step s = .refused (.noSuchLocation m)

/-- 10_state.md R24: the layout of STATUS, its read, its ignored write and its reset value. -/
def Obligations.StatusLayout : Prop :=
  (∀ s : State, s.status.getLsbD 0 = s.busy ∧ s.status.getLsbD 1 = s.done ∧ s.status.getLsbD 2 = s.err ∧
    s.status.getLsbD 3 = s.argv ∧ s.status.getLsbD 4 = s.sav ∧ s.status.getLsbD 5 = s.ovr ∧
    s.status.extractLsb' 6 2 = 0 ∧ s.status.extractLsb' 8 4 = s.cause.code ∧ s.status.extractLsb' 12 20 = 0 ∧
    hostMove (.regRead 2) s = .next { s with replies := .word s.status :: s.replies } ∧
    ∀ v, hostMove (.regWrite 2 v) s = .next s) ∧
  State.reset.status = 0

/-- The codes and the classes of the causes (60_exceptions.md R211, R212). -/
def Obligations.CauseCodesAndClasses : Prop :=
  (∀ row ∈ ([(.none, 0), (.absent, 1), (.empty, 2), (.capacity, 3), (.index, 4), (.nosa, 5), (.mtfidx, 6), (.mtfsym, 7),
             (.first, 8), (.illegal, 9)] : List (Cause × BitVec 4)), row.1.code = row.2) ∧
  Cause.none.classOf = none ∧ Cause.first.classOf = some .corruptStream ∧ Cause.illegal.classOf = some .illegalCommand ∧
  ∀ c : Cause, c ≠ .none → c ≠ .first → c ≠ .illegal → c.classOf = some .invalidArgument

/-! ### The control commands -/

/-- CTL.NOP completes and does nothing else; ARGV is unchanged from before its issue (40_ctl.md R113). -/
def Obligations.NopOnlyClearsTheReport : Prop :=
  (∀ s : State, exec .ctlNop s = .next s.completed) ∧
  ∀ s : State, s.busy = false → ∃ t, hostMove (.regWrite 0 0) s = .next t ∧
    complete t = .next { s with cmdl := 0, argl := s.arg, avl := s.argv, busy := false, done := true,
                                err := false, cause := .none }

/-- The writes of CTL.RESET, the comparison with the hardware reset state, and that it cannot be issued while BUSY = 1
(40_ctl.md R114). That the hidden cursors stay is the model's choice (log 5). -/
def Obligations.SoftResetLeavesTheResetState : Prop :=
  (∀ s : State, exec .ctlReset s = .next
    { s with arg := 0, argv := false, sav := false, ovr := false, result := 0, olen := 0, n := 0, argl := 0, avl := false,
             sp := 0, list := (List.range 256).map (BitVec.ofNat 8),
             busy := false, done := true, err := false, cause := .none }) ∧
  (∀ s : State, s.cmdl = 1 → exec .ctlReset s = .next
    { s.hardReset with done := true, cmdl := 1, ibuf := s.ibuf, obuf := s.obuf, sa := s.sa, next := s.next,
                       sorted := s.sorted, count := s.count, stack := s.stack, cur := s.cur }) ∧
  ∀ s : State, s.busy = true → hostMove (.regWrite 0 1) s = .next { s with ovr := true }

/-! ### The sorter -/

/-- 41_css.md R124: cyclic character addressing and its sentinel. -/
def Obligations.CharAtIsCyclicWithASentinel : Prop :=
  ∀ (text : List Byte) (off d : Nat), off < text.length → d ≤ text.length →
    (d < text.length → charAt text off d = (text.getD ((off + d) % text.length) 0).toNat) ∧
    (d = text.length → charAt text off d = -1) ∧ -1 ≤ charAt text off d ∧ charAt text off d ≤ 255

/-- Two rotations are equal exactly when rotating the text by their distance leaves it unchanged (00_scope.md R14). -/
def Obligations.EqualRotationsAreShifts : Prop :=
  ∀ (text : List Byte) (a b : Nat), a ≤ b → b < text.length →
    (rotation text a = rotation text b ↔
      ∀ i < text.length, text[i]? = text[(i + (b - a)) % text.length]?)

/-- TIEBREAK(text) is in Sorted(text) for every text and every instance; it is RefSort's order where the instance gives
no other, and every member of Sorted(text) is the order of some instance (41_css.md R121, R123, R133). That TIEBREAK is a
table in the state is the model's choice (log 3). -/
def Obligations.SuffixOrderIsSorted : Prop :=
  (∀ (s : State) (text : List Byte), Sorted text (s.suffixOrder text)) ∧
  (∀ (s : State) (text : List Byte), s.tieBreak = [] → s.suffixOrder text = refSort text) ∧
  ∀ (s : State) (text : List Byte) (order : List Nat), Sorted text order →
    ({ s with tieBreak := [(text, order)] } : State).suffixOrder text = order

/-- For any text the sequence of sorted rotations is the same for every TIEBREAK, and with all rotations different the
order is too (41_css.md R121, R123). -/
def Obligations.TiesOnlyTradePlaces : Prop :=
  ∀ (text : List Byte) (p q : List Nat), Sorted text p → Sorted text q →
    p.map (rotation text) = q.map (rotation text) ∧
    ((∀ a < text.length, ∀ b < text.length, rotation text a = rotation text b → a = b) → p = q)

/-- 41_css.md R128: at all times the work items are pairwise disjoint ranges of SA[0..n-1] with at least two entries
each, so the stack never holds more than floor(n / 2) of them, and STKCAP entries suffice. -/
def Obligations.SortStackNeverOverflows : Prop :=
  ∀ (text : List Byte) (mem : Memory StackEntry) (cur : Cursors) (k : Nat),
    let r := sortRounds text k (sortStart text mem cur)
    (∀ w ∈ r.items, w.lo < w.hi ∧ w.hi < text.length) ∧
    r.items.Pairwise (fun v w => v.hi < w.lo ∨ w.hi < v.lo) ∧
    r.items.length ≤ text.length / 2 ∧
    ∀ nmax : Word, text.length ≤ nmax.toNat → r.items.length ≤ Config.stkcapOf nmax

/-- RefSort ends with an empty stack, every depth it asks for is in [0, n], and SA stays a permutation (41_css.md R132, R133). -/
def Obligations.ReferenceSortEnds : Prop :=
  ∀ (text : List Byte) (mem : Memory StackEntry) (cur : Cursors),
    (runSort text mem cur).items = [] ∧
    ∀ k, (∀ w ∈ (sortRounds text k (sortStart text mem cur)).items, w.d ≤ text.length) ∧
      (sortRounds text k (sortStart text mem cur)).sa.Perm (List.range text.length)

/-- CSS.BUILD on a written text of length n in [1, NMAX] completes: SA[0..n-1] is TIEBREAK's order, N = n, SAV = 1, and
apart from the report and the sorter's hidden state nothing else changes (41_css.md R122). -/
def Obligations.BuildStoresTheSuffixOrder : Prop :=
  ∀ (s : State) (text : List Byte), s.avl = true → s.argl ≠ 0 → s.argl.toNat ≤ s.nmax.toNat →
    s.ibuf.readBlock 0 s.argl.toNat = some text →
    ∃ t, exec .cssBuild s = .next t ∧
      t.sa.readBlock 0 s.argl.toNat = some ((s.suffixOrder text).map (BitVec.ofNat 32)) ∧
      t = { s with sa := t.sa, n := s.argl, sav := true, stack := t.stack, sp := t.sp,
                   cur := { s.cur with sortLt := t.cur.sortLt, sortGt := t.cur.sortGt, sortI := t.cur.sortI,
                                       sortV := t.cur.sortV },
                   busy := false, done := true, err := false, cause := .none }

/-- CSS.LENGTH completes whenever SAV = 1: RESULT = N, and only the report changes beside it (41_css.md R129). -/
def Obligations.LengthReturnsN : Prop :=
  ∀ s : State, s.sav = true → exec .cssLength s = .next { s.completed with result := s.n }

/-- CSS.INDEXAT with a supplied row below N of an existing suffix array completes: RESULT = SA[i] where that entry
holds a value (every run's does), and only the report changes beside it; an entry that holds none, which no run reaches,
gives some value (41_css.md R130; 93_implementation_defined.md U6, log 6). -/
def Obligations.IndexAtReturnsTheEntry : Prop :=
  ∀ s : State, s.avl = true → s.sav = true → s.argl.toNat < s.n.toNat →
    (∀ v, s.sa.read s.argl.toNat = some v → exec .cssIndexat s = .next { s.completed with result := v }) ∧
    (s.sa.read s.argl.toNat = none → ∃ v, exec .cssIndexat s = .next { s.completed with result := v, drawn := s.drawn + 1 })

/-- After a successful CSS.BUILD, in every state that still has its SA, N and SAV, CSS.LENGTH returns n and CSS.INDEXAT 0 to
n-1 return a permutation of 0..n-1 that orders the rotations (41_css.md R131). -/
def Obligations.SorterAnswersForItsText : Prop :=
  ∀ (s t u : State) (text : List Byte), s.ibuf.readBlock 0 s.argl.toNat = some text →
    exec .cssBuild s = .next t → t.err = false → u.sa = t.sa → u.n = t.n → u.sav = t.sav →
    (∃ v, exec .cssLength u = .next v ∧ v.result = s.argl) ∧
    ∃ order : List Nat, Sorted text order ∧
      ∀ i < text.length, ∃ v, exec .cssIndexat { u with argl := BitVec.ofNat 32 i, avl := true } = .next v ∧
        v.err = false ∧ some v.result.toNat = order[i]?

/-! ### The Burrows-Wheeler unit -/

/-- BWT.TRANSFORM on a written text of length n in [1, NMAX] completes: SA, N, SAV as CSS.BUILD leaves them, `first` in
RESULT and big-endian in OBUF[0..3], T[i] = text[(SA[i] - 1 + n) mod n] in OBUF[4..n+3], OLEN = n + 4, every byte of OBUF
above unchanged, and nothing else changes but the report and hidden state (42_bwt.md R150, R151). -/
def Obligations.TransformEmitsTheMessage : Prop :=
  ∀ (s : State) (text : List Byte), s.avl = true → s.argl ≠ 0 → s.argl.toNat ≤ s.nmax.toNat →
    s.ibuf.readBlock 0 s.argl.toNat = some text →
    ∃ t, exec .bwtTransform s = .next t ∧
      t.sa.readBlock 0 s.argl.toNat = some ((s.suffixOrder text).map (BitVec.ofNat 32)) ∧
      t.result = BitVec.ofNat 32 ((s.suffixOrder text).idxOf 0) ∧
      t.obuf.readBlock 0 (s.argl.toNat + 4) = some
        ([t.result.extractLsb' 24 8, t.result.extractLsb' 16 8, t.result.extractLsb' 8 8, t.result.extractLsb' 0 8] ++
          (s.suffixOrder text).map (fun a => text.getD ((a + text.length - 1) % text.length) 0)) ∧
      (∀ j, s.argl.toNat + 4 ≤ j → t.obuf.read j = s.obuf.read j) ∧
      t = { s with sa := t.sa, n := s.argl, sav := true, stack := t.stack, sp := t.sp,
                   cur := { s.cur with sortLt := t.cur.sortLt, sortGt := t.cur.sortGt, sortI := t.cur.sortI,
                                       sortV := t.cur.sortV, transI := t.cur.transI },
                   obuf := t.obuf, olen := s.argl + 4, result := t.result,
                   busy := false, done := true, err := false, cause := .none }

/-- `first` is the one row that holds offset 0 (42_bwt.md R151). -/
def Obligations.FirstIsTheRowOfTheText : Prop :=
  ∀ (text : List Byte) (order : List Nat), text ≠ [] → Sorted text order →
    firstRow order < text.length ∧ order[firstRow order]? = some 0 ∧
    ∀ i, order[i]? = some 0 → i = firstRow order

/-- 42_bwt.md R152: the last column is a permutation of the text. -/
def Obligations.LastColumnIsAPermutation : Prop :=
  ∀ (text : List Byte) (order : List Nat), Sorted text order →
    (lastColumn text order).Perm text ∧ ∀ c : Byte, (lastColumn text order).count c = text.count c

/-- T is the same for every TIEBREAK, and the row of `first` under one of them holds, under any other, a rotation equal to
the text (42_bwt.md R153). -/
def Obligations.LastColumnDoesNotDependOnTies : Prop :=
  ∀ (text : List Byte) (p q : List Nat), Sorted text p → Sorted text q →
    lastColumn text p = lastColumn text q ∧
    (text ≠ [] → ∃ a, q[firstRow p]? = some a ∧ rotation text a = text)

/-- The tables of the inverse, for any bytes T: SORTED is T in ascending order, NEXT is a permutation of the rows with
T[NEXT[r]] = SORTED[r], equal symbols keep their order, and COUNT[c] is the number of positions with T[i] <= c
(42_bwt.md R156 to R158, R163). -/
def Obligations.InverseTablesAreAStableSort : Prop :=
  ∀ column : List Byte,
    let t := inverseTables column
    t.next.Perm (List.range column.length) ∧
    t.sorted.Perm column ∧ t.sorted.Pairwise (fun a b => a.toNat ≤ b.toNat) ∧
    (∀ r, r < column.length → column[t.next.getD r 0]? = t.sorted[r]?) ∧
    (∀ r q, r < q → q < column.length → t.sorted[r]? = t.sorted[q]? → t.next.getD r 0 < t.next.getD q 0) ∧
    (∀ c, c < 256 → t.count[c]? = some (column.countP (fun b => b.toNat ≤ c))) ∧ t.count[256]? = some column.length

/-- BWT.INVERSE on a written message with n in [1, NMAX] and first < n completes, whatever the n bytes T are (42_bwt.md
R154, R155, R159): NEXT, SORTED and COUNT hold the tables of T, OBUF[k] = SORTED[ROW] for the ROW that k moves along NEXT
reach from `first`, OLEN = n, the entries above stay, and nothing else changes but the report and hidden state. -/
def Obligations.InverseWalksTheTables : Prop :=
  ∀ (s : State) (b0 b1 b2 b3 : Byte) (column : List Byte), s.avl = true → s.argl ≠ 0 → s.argl.toNat ≤ s.nmax.toNat →
    s.ibuf.readBlock 0 4 = some [b0, b1, b2, b3] →
    b0.toNat * 2 ^ 24 + b1.toNat * 2 ^ 16 + b2.toNat * 2 ^ 8 + b3.toNat < s.argl.toNat →
    s.ibuf.readBlock 4 s.argl.toNat = some column →
    ∃ t, exec .bwtInverse s = .next t ∧
      t.next.readBlock 0 s.argl.toNat = some ((inverseTables column).next.map (BitVec.ofNat 32)) ∧
      t.sorted.readBlock 0 s.argl.toNat = some (inverseTables column).sorted ∧
      t.count.readBlock 0 257 = some ((inverseTables column).count.map (BitVec.ofNat 32)) ∧
      (∀ k, k < s.argl.toNat → (t.obuf.read k).isSome = true ∧ t.obuf.read k = t.sorted.read
        ((fun row => ((t.next.read row).getD 0).toNat)^[k]
          (b0.toNat * 2 ^ 24 + b1.toNat * 2 ^ 16 + b2.toNat * 2 ^ 8 + b3.toNat))) ∧
      (∀ j, s.argl.toNat ≤ j → t.obuf.read j = s.obuf.read j ∧ t.next.read j = s.next.read j ∧
        t.sorted.read j = s.sorted.read j) ∧
      t = { s with obuf := t.obuf, olen := s.argl, count := t.count, next := t.next, sorted := t.sorted,
                   cur := { s.cur with invI := t.cur.invI, invR := t.cur.invR, invK := t.cur.invK, row := t.cur.row },
                   busy := false, done := true, err := false, cause := .none }

/-- The round-trip law (42_bwt.md R161): BWT.TRANSFORM n, the n + 4 bytes of OBUF carried to IBUF, then BWT.INVERSE n leaves OBUF[0..n-1] equal to
the text, for every text of length n in [1, NMAX] and every TIEBREAK; and the walk reads the text from any row that holds a
rotation equal to it. Every TIEBREAK is every table of State.tieBreak, the model's form of the parameter (log 3). -/
def Obligations.TransformThenInverseGivesTheText : Prop :=
  (∀ (s : State) (text : List Byte), legalNmax s.nmax = true → s.avl = true → s.argl ≠ 0 → s.argl.toNat ≤ s.nmax.toNat →
    s.ibuf.readBlock 0 s.argl.toNat = some text →
    ∃ t, exec .bwtTransform s = .next t ∧ t.err = false ∧
      ∀ u : State, u.ibuf.readBlock 0 t.olen.toNat = t.obuf.readBlock 0 t.olen.toNat → u.avl = true → u.argl = s.argl →
        u.nmax = s.nmax →
        ∃ v, exec .bwtInverse u = .next v ∧ v.err = false ∧ v.olen = s.argl ∧
          v.obuf.readBlock 0 s.argl.toNat = some text) ∧
  ∀ (text : List Byte) (order : List Nat) (row a : Nat), Sorted text order → order[row]? = some a →
    rotation text a = text → inverseText row (lastColumn text order) = text

/-- The pipeline of 00_scope.md R2, compress and decompress, as a host script (30_encoding.md R97 to R99): every text of length
n in [1, NMAX] in the IBUF of an idle block comes back in OBUF, for every TIEBREAK. The form of TIEBREAK (log 3) and of the
script's WAIT (log 12) is the model's choice. -/
def Obligations.PipelineGivesTheTextBack : Prop :=
  ∀ (s : State) (text : List Byte), s.busy = false → legalNmax s.nmax = true → 1 ≤ text.length →
    text.length ≤ s.nmax.toNat → s.ibuf.readBlock 0 text.length = some text →
    ∃ v, runScript
      [.command .bwtTransform (some (BitVec.ofNat 32 text.length)), .xfer none,
       .command .mtfEncode (some (BitVec.ofNat 32 (text.length + 4))), .xfer none,
       .command .mtfDecode (some (BitVec.ofNat 32 (text.length + 4))), .xfer none,
       .command .bwtInverse (some (BitVec.ofNat 32 text.length))] s = .next v ∧
      v.busy = false ∧ v.done = true ∧ v.err = false ∧ v.olen.toNat = text.length ∧
      v.obuf.readBlock 0 text.length = some text

/-! ### The move-to-front unit -/

/-- MTF.INIT completes: LIST[j] = j, and nothing else but the report changes (43_mtf.md R181, R184). -/
def Obligations.InitMakesTheIdentityList : Prop :=
  ∀ s : State, exec .mtfInit s = .next { s.completed with list := (List.range 256).map (BitVec.ofNat 8) }

/-- MTF.ENC1 with a supplied byte c completes (43_mtf.md R182, R185): RESULT is the position p of c, c moves to the front, the
p entries before it shift right by one, the others stay, and nothing else but the report and hidden state changes. -/
def Obligations.EncodeStepMovesTheSymbolToTheFront : Prop :=
  ∀ s : State, s.avl = true → s.argl.toNat < 256 → s.list.Perm identityList →
    ∃ t p, exec .mtfEnc1 s = .next t ∧ p < 256 ∧ s.list[p]? = some (s.argl.setWidth 8) ∧ t.result.toNat = p ∧
      t.list.length = 256 ∧ t.list[0]? = some (s.argl.setWidth 8) ∧
      (∀ j, 1 ≤ j → j ≤ p → t.list[j]? = s.list[j - 1]?) ∧ (∀ j, p < j → t.list[j]? = s.list[j]?) ∧
      t = { s with list := t.list, result := t.result, cur := { s.cur with mtfP := t.cur.mtfP, mtfC := t.cur.mtfC },
                   busy := false, done := true, err := false, cause := .none }

/-- MTF.DEC1 with a supplied k below 256 completes (43_mtf.md R183, R186): RESULT is the symbol at position k, which moves to
the front; the k entries before it shift right by one, the others stay, and nothing else but the report and hidden state changes. -/
def Obligations.DecodeStepMovesThePositionToTheFront : Prop :=
  ∀ s : State, s.avl = true → s.argl.toNat < 256 → s.list.Perm identityList →
    ∃ t c, exec .mtfDec1 s = .next t ∧ s.list[s.argl.toNat]? = some c ∧ t.result = c.setWidth 32 ∧
      t.list.length = 256 ∧ t.list[0]? = some c ∧
      (∀ j, 1 ≤ j → j ≤ s.argl.toNat → t.list[j]? = s.list[j - 1]?) ∧ (∀ j, s.argl.toNat < j → t.list[j]? = s.list[j]?) ∧
      t = { s with list := t.list, result := t.result, cur := { s.cur with mtfP := t.cur.mtfP, mtfC := t.cur.mtfC },
                   busy := false, done := true, err := false, cause := .none }

/-- 43_mtf.md R189: LIST starts as the 256 symbols, both steps keep it a permutation of them, and so every byte is found. -/
def Obligations.StepsKeepTheListAPermutation : Prop :=
  identityList = (List.range 256).map (BitVec.ofNat 8) ∧
  ∀ list : List Byte, list.Perm identityList →
    (∀ c, list.count c = 1 ∧ (encStep c list).1 < 256 ∧ list[(encStep c list).1]? = some c) ∧
    (∀ c, (encStep c list).2.Perm identityList) ∧ (∀ k, k < 256 → (decStep k list).2.Perm identityList)

/-- 43_mtf.md R190: immediately after a step on the symbol c, LIST[0] = c; MTF.DEC1 0 returns LIST[0] and moves nothing. -/
def Obligations.FrontHoldsTheLastSymbol : Prop :=
  (∀ c list, (encStep c list).2[0]? = some c) ∧ (∀ k list, (decStep k list).2[0]? = some (decStep k list).1) ∧
  (∀ s t, exec .mtfEnc1 s = .next t → t.err = false → t.list[0]? = some (s.argl.setWidth 8)) ∧
  (∀ s t, exec .mtfDec1 s = .next t → t.err = false → t.list[0]? = some (t.result.setWidth 8)) ∧
  ∀ s : State, ∀ c rest, s.avl = true → s.argl = 0 → s.list = c :: rest →
    ∃ t, exec .mtfDec1 s = .next t ∧ t.err = false ∧ t.result = c.setWidth 32 ∧ t.list = s.list

/-- 43_mtf.md R191: from the same LIST, decstep undoes encstep and leaves the same LIST, and decode(encode(s)) = s for every
byte sequence s, the empty one included. -/
def Obligations.DecodeUndoesEncode : Prop :=
  ∀ list : List Byte, list.Perm identityList →
    (∀ c, decStep (encStep c list).1 list = (c, (encStep c list).2)) ∧
    ∀ input, decodeStream list (encodeStream list input).1 = (input, (encodeStream list input).2)

/-- MTF.ENCODE on n written symbols, n in [0, BCAP], completes (43_mtf.md R187): LIST starts as the identity, OBUF[0..n-1]
holds the n indices, OLEN = n, LIST is the pass's last list, the bytes of OBUF above stay, and nothing else but the report
and hidden state changes. -/
def Obligations.EncodePassCompletes : Prop :=
  ∀ (s : State) (input : List Byte), s.avl = true → s.argl.toNat ≤ s.nmax.toNat + 4 →
    s.ibuf.readBlock 0 s.argl.toNat = some input →
    ∃ t, exec .mtfEncode s = .next t ∧
      t.obuf.readBlock 0 s.argl.toNat = some (encodeStream ((List.range 256).map (BitVec.ofNat 8)) input).1 ∧
      t.list = (encodeStream ((List.range 256).map (BitVec.ofNat 8)) input).2 ∧
      (∀ j, s.argl.toNat ≤ j → t.obuf.read j = s.obuf.read j) ∧
      t = { s with obuf := t.obuf, olen := s.argl, list := t.list,
                   cur := { s.cur with mtfJ := t.cur.mtfJ, mtfP := t.cur.mtfP, mtfC := t.cur.mtfC },
                   busy := false, done := true, err := false, cause := .none }

/-- MTF.DECODE on n written indices, n in [0, BCAP], completes, whatever the bytes are (43_mtf.md R188), with the frame of
MTF.ENCODE. -/
def Obligations.DecodePassCompletes : Prop :=
  ∀ (s : State) (input : List Byte), s.avl = true → s.argl.toNat ≤ s.nmax.toNat + 4 →
    s.ibuf.readBlock 0 s.argl.toNat = some input →
    ∃ t, exec .mtfDecode s = .next t ∧
      t.obuf.readBlock 0 s.argl.toNat = some (decodeStream ((List.range 256).map (BitVec.ofNat 8)) input).1 ∧
      t.list = (decodeStream ((List.range 256).map (BitVec.ofNat 8)) input).2 ∧
      (∀ j, s.argl.toNat ≤ j → t.obuf.read j = s.obuf.read j) ∧
      t = { s with obuf := t.obuf, olen := s.argl, list := t.list,
                   cur := { s.cur with mtfJ := t.cur.mtfJ, mtfP := t.cur.mtfP, mtfC := t.cur.mtfC },
                   busy := false, done := true, err := false, cause := .none }

/-- 43_mtf.md R192: MTF.INIT and then a step command for each byte returns, one after the other, exactly the bytes the stream
command writes, and leaves the same LIST; for encoding and for decoding. -/
def Obligations.StepModeEqualsStreamMode : Prop :=
  ∀ row ∈ [(Instr.mtfEncode, Instr.mtfEnc1), (Instr.mtfDecode, Instr.mtfDec1)],
  ∀ (s t u v : State) (input : List Byte), s.ibuf.readBlock 0 s.argl.toNat = some input →
    exec row.1 s = .next t → t.err = false → exec .mtfInit u = .next v →
    ∃ out w, t.obuf.readBlock 0 s.argl.toNat = some out ∧
      stepMode row.2 input v = some (out.map (BitVec.setWidth 32), w) ∧ w.list = t.list

/-! ### Errors -/

/-- The checks of every command, in their order; the first that fails is the one reported (60_exceptions.md R213). That
E_FIRST needs IBUF[0..3] written and no byte of T is deduced from 60_exceptions.md R214: the model's choice (log 7). -/
def Obligations.ChecksReportTheFirstFailure : Prop :=
  (∀ s : State, (∀ i, decode s.cmdl ≠ .instr i) → complete s = .next (s.failedWith .illegal)) ∧
  (∀ (s : State) (i : Instr), decode s.cmdl = .instr i → complete s = exec i s) ∧
  (∀ s : State, ∀ i ∈ [Instr.ctlNop, .ctlReset, .mtfInit], ∃ t, exec i s = .next t ∧ t.err = false) ∧
  (∀ s : State, ∀ i ∈ [Instr.cssBuild, .cssIndexat, .bwtTransform, .bwtInverse, .mtfEnc1, .mtfDec1, .mtfEncode, .mtfDecode],
    s.avl = false → exec i s = .next (s.failedWith .absent)) ∧
  (∀ s : State, ∀ i ∈ [Instr.cssBuild, .bwtTransform, .bwtInverse], s.avl = true →
    (s.argl = 0 → exec i s = .next (s.failedWith .empty)) ∧
    (s.argl ≠ 0 → s.nmax.toNat < s.argl.toNat → exec i s = .next (s.failedWith .capacity))) ∧
  (∀ (s : State) (b0 b1 b2 b3 : Byte), s.avl = true → s.argl ≠ 0 → s.argl.toNat ≤ s.nmax.toNat →
    s.ibuf.readBlock 0 4 = some [b0, b1, b2, b3] →
    s.argl.toNat ≤ b0.toNat * 2 ^ 24 + b1.toNat * 2 ^ 16 + b2.toNat * 2 ^ 8 + b3.toNat →
    exec .bwtInverse s = .next (s.failedWith .first)) ∧
  (∀ s : State, s.sav = false → exec .cssLength s = .next (s.failedWith .nosa)) ∧
  (∀ s : State, s.avl = true →
    (s.sav = false → exec .cssIndexat s = .next (s.failedWith .nosa)) ∧
    (s.sav = true → s.n.toNat ≤ s.argl.toNat → exec .cssIndexat s = .next (s.failedWith .index))) ∧
  (∀ s : State, s.avl = true → 256 ≤ s.argl.toNat →
    exec .mtfEnc1 s = .next (s.failedWith .mtfsym) ∧ exec .mtfDec1 s = .next (s.failedWith .mtfidx)) ∧
  (∀ s : State, ∀ i ∈ [Instr.mtfEncode, .mtfDecode], s.avl = true → s.nmax.toNat + 4 < s.argl.toNat →
    exec i s = .next (s.failedWith .capacity))

/-- 60_exceptions.md R215: exactly what a failed command changes, relative to the state just before its issue. -/
def Obligations.FailedCommandChangesOnlyTheReport : Prop :=
  ∀ (s t : State) (w : Word), s.busy = false → complete (s.issued w) = .next t → t.err = true →
    t.cause ≠ .none ∧
    t = { s with cmdl := w, argl := s.arg, avl := s.argv,
                 argv := if w ∈ ([0x10, 0x12, 0x20, 0x21, 0x31, 0x32, 0x33, 0x34] : List Word) then false else s.argv,
                 busy := false, done := true, err := true, cause := t.cause }

/-- A command ends in exactly one of two ways: success, or an error with a cause; either way BUSY = 0 and DONE = 1
(00_scope.md R15; 40_ctl.md R111). -/
def Obligations.CommandEndsInSuccessOrError : Prop :=
  ∀ s t : State, complete s = .next t →
    t.busy = false ∧ t.done = true ∧
    ((t.err = false ∧ t.cause = .none) ∨ (t.err = true ∧ t.cause ≠ .none ∧ t = s.failedWith t.cause))

/-- The machine stops in one case only: the message of a command covers a byte of IBUF that was never written
(20_memory.md R76; 93_implementation_defined.md U1); and each of the five commands with a message, its checks passed, stops
exactly then. Which bytes count is the model's choice (log 7, log 8). -/
def Obligations.OnlyUnwrittenInputStopsACommand : Prop :=
  (∀ (s : State) (i : Instr), (∀ r, exec i s ≠ .refused r) ∧
    (∀ f, exec i s = .fault f → f = .unwrittenInput ∧ ∃ j, j < messageSpan i s ∧ s.ibuf.read j = none) ∧
    ∀ text, i ∈ [Instr.cssBuild, .bwtTransform] → s.avl = true → s.argl ≠ 0 → s.argl.toNat ≤ s.nmax.toNat →
      s.ibuf.readBlock 0 s.argl.toNat = text → (exec i s = .fault .unwrittenInput ↔ text = none)) ∧
  (∀ (s : State), ∀ i ∈ [Instr.mtfEncode, .mtfDecode], s.avl = true → s.argl.toNat ≤ s.nmax.toNat + 4 →
    (exec i s = .fault .unwrittenInput ↔ s.ibuf.readBlock 0 s.argl.toNat = none)) ∧
  ∀ s : State, s.avl = true → s.argl ≠ 0 → s.argl.toNat ≤ s.nmax.toNat →
    (s.ibuf.readBlock 0 4 = none → exec .bwtInverse s = .fault .unwrittenInput) ∧
    ∀ b0 b1 b2 b3 : Byte, s.ibuf.readBlock 0 4 = some [b0, b1, b2, b3] →
      b0.toNat * 2 ^ 24 + b1.toNat * 2 ^ 16 + b2.toNat * 2 ^ 8 + b3.toNat < s.argl.toNat →
      (exec .bwtInverse s = .fault .unwrittenInput ↔ s.ibuf.readBlock 4 s.argl.toNat = none)

/-- Every issued command completes: with its message written, a busy block's next turn ends with BUSY = 0 and DONE = 1
(40_ctl.md R111; 70_reset_and_hazards.md R252, R262). -/
def Obligations.IssuedCommandCompletes : Prop :=
  ∀ (s : State) (i : Instr), s.busy = true → decode s.cmdl = .instr i → s.MessageWritten i →
    ∃ t, step { s with schedule := [] } = .next t ∧ t.busy = false ∧ t.done = true

/-- The operand is used once: after a command that takes one was issued, a bare command that takes one fails with E_ABSENT
until ARG is written again (70_reset_and_hazards.md R260). -/
def Obligations.OperandIsUsedOnce : Prop :=
  ∀ (s t : State) (i j : Instr), takesOperand i = true → takesOperand j = true →
    complete (s.issued (encode i)) = .next t →
    t.argv = false ∧ t.arg = s.arg ∧ ∃ u, complete (t.issued (encode j)) = .next u ∧ u.err = true ∧ u.cause = .absent

/-! ### Whole-machine rules -/

/-- 20_memory.md R77: no command writes IBUF, and in any step it changes only by a byte the idle block's host writes, or by
hardware reset. -/
def Obligations.OnlyTheHostWritesIbuf : Prop :=
  (∀ s t : State, complete s = .next t → t.ibuf = s.ibuf) ∧
  ∀ s t : State, step s = .next t →
    t.ibuf = s.ibuf ∨ (∃ rest, s.schedule = .hardReset :: rest) ∨
    ∃ j b rest, s.schedule = .host (.ibufWrite j b) :: rest ∧ s.busy = false ∧
      t.ibuf.read j = some b ∧ ∀ k, k ≠ j → t.ibuf.read k = s.ibuf.read k

/-- Which command may change which state (10_state.md R30, R31, R42, R47; 40_ctl.md R112). -/
def Obligations.EachCommandWritesOnlyItsOwn : Prop :=
  ∀ (s t : State) (i : Instr), exec i s = .next t →
    (t.nmax = s.nmax ∧ t.tieBreak = s.tieBreak ∧ t.cmdl = s.cmdl ∧ t.ibuf = s.ibuf ∧ t.schedule = s.schedule ∧
      t.replies = s.replies) ∧
    (i ≠ .ctlReset → t.arg = s.arg ∧ t.argv = s.argv ∧ t.ovr = s.ovr ∧ t.argl = s.argl ∧ t.avl = s.avl) ∧
    (i ∉ [Instr.cssBuild, .bwtTransform] → t.sa = s.sa ∧ t.stack = s.stack) ∧
    (i ∉ [Instr.cssBuild, .bwtTransform, .ctlReset] → t.n = s.n ∧ t.sav = s.sav ∧ t.sp = s.sp) ∧
    (i ∉ [Instr.cssLength, .cssIndexat, .bwtTransform, .mtfEnc1, .mtfDec1, .ctlReset] → t.result = s.result) ∧
    (i ∉ [Instr.bwtTransform, .bwtInverse, .mtfEncode, .mtfDecode] → t.obuf = s.obuf) ∧
    (i ∉ [Instr.bwtTransform, .bwtInverse, .mtfEncode, .mtfDecode, .ctlReset] → t.olen = s.olen) ∧
    (i ≠ .bwtInverse → t.next = s.next ∧ t.sorted = s.sorted ∧ t.count = s.count) ∧
    (i ∉ [Instr.mtfInit, .mtfEnc1, .mtfDec1, .mtfEncode, .mtfDecode, .ctlReset] → t.list = s.list)

/-- No command's result depends on what an earlier command left in a working memory or a cursor: two states that differ only
in NEXT, SORTED, COUNT, STACK, SP and the cursors give outcomes that differ only there (10_state.md R20, R47). -/
def Obligations.WorkingMemoriesCarryNothingOver : Prop :=
  ∀ (i : Instr) (s s' : State),
    s' = { s with next := s'.next, sorted := s'.sorted, count := s'.count, stack := s'.stack, sp := s'.sp, cur := s'.cur } →
    OutcomesRelated (fun t t' => t' = { t with next := t'.next, sorted := t'.sorted, count := t'.count, stack := t'.stack,
                                               sp := t'.sp, cur := t'.cur }) (exec i s) (exec i s')

/-- The host cannot disturb a busy command: whatever move it makes, the completion that follows differs only in OVR and in the
record of the interface (20_memory.md R62, R73). -/
def Obligations.BusyHostCannotDisturbTheCommand : Prop :=
  ∀ (s s' : State) (m : HostMove), s.Inv → s.busy = true → hostMove m s = .next s' →
    OutcomesRelated (fun t t' => t' = { t with ovr := t'.ovr, replies := t'.replies, drawn := t'.drawn })
      (complete s) (complete s')

/-- BUSY is set only by the host's write of CMD and cleared only by the completion or by hardware reset (10_state.md R25;
60_exceptions.md R222). -/
def Obligations.BusyChangesOnlyAtIssueCompletionAndReset : Prop :=
  ∀ s t : State, step s = .next t →
    (s.busy = false → t.busy = true → ∃ w rest, s.schedule = .host (.regWrite 0 w) :: rest ∧ t.cmdl = w) ∧
    (s.busy = true → t.busy = false →
      (s.schedule = [] ∧ complete s = .next t) ∨
      (∃ rest, s.schedule = .sequencer :: rest ∧ complete { s with schedule := rest } = .next t) ∨
      ∃ rest, s.schedule = .hardReset :: rest)

/-- 10_state.md R29: OVR is set exactly by a dropped write of CMD, ARG or an IBUF byte, which changes nothing else, and
cleared only by hardware reset and by CTL.RESET. -/
def Obligations.OverrunIsSticky : Prop :=
  State.reset.ovr = false ∧ ∀ s t : State, step s = .next t →
    (s.ovr = false → t.ovr = true → s.busy = true ∧
      ∃ m rest, s.schedule = .host m :: rest ∧
        ((∃ v, m = .regWrite 0 v) ∨ (∃ v, m = .regWrite 1 v) ∨ (∃ j b, m = .ibufWrite j b)) ∧
        t = { s with schedule := rest, ovr := true }) ∧
    (s.ovr = true → t.ovr = false → (∃ rest, s.schedule = .hardReset :: rest) ∨
      (s.busy = true ∧ s.cmdl = encode .ctlReset ∧ (s.schedule = [] ∨ ∃ rest, s.schedule = .sequencer :: rest))) ∧
    ∀ m rest, s.schedule = .host m :: rest → s.busy = true →
      ((∃ v, m = .regWrite 0 v) ∨ (∃ v, m = .regWrite 1 v) ∨ (∃ j b, m = .ibufWrite j b)) → t.ovr = true

/-- SAV is set only by the completion of CSS.BUILD or BWT.TRANSFORM, and cleared only by hardware reset and by CTL.RESET
(10_state.md R28). -/
def Obligations.OnlyBuildsMakeASuffixArray : Prop :=
  ∀ s t : State, step s = .next t →
    (s.sav = false → t.sav = true → s.busy = true ∧ (s.cmdl = encode .cssBuild ∨ s.cmdl = encode .bwtTransform) ∧
      t.err = false) ∧
    (s.sav = true → t.sav = false → (∃ rest, s.schedule = .hardReset :: rest) ∨
      (s.busy = true ∧ s.cmdl = encode .ctlReset))

/-- The parameters NMAX and TIEBREAK of an instance never change (00_scope.md R7, R8; 10_state.md R32). -/
def Obligations.ParametersNeverChange : Prop :=
  ∀ s t : State, step s = .next t → t.nmax = s.nmax ∧ t.tieBreak = s.tieBreak

/-! ### Reset and the invariants -/

/-- What 10_state.md R45 says of the state after hardware reset, NMAX apart; a memory that lists no entry has no value. -/
def Sys2Proof.Machine.State.HoldsResetValues (t : State) : Prop :=
  t.arg = 0 ∧ t.argv = false ∧ t.busy = false ∧ t.done = false ∧ t.err = false ∧ t.cause.code = 0 ∧ t.sav = false ∧
  t.ovr = false ∧ t.status = 0x00000000 ∧ t.result = 0 ∧ t.olen = 0 ∧ t.n = 0 ∧ t.cmdl = 0 ∧ t.argl = 0 ∧ t.avl = false ∧
  t.sp = 0 ∧ t.list.length = 256 ∧ (∀ j < 256, t.list[j]? = some (BitVec.ofNat 8 j)) ∧
  ∀ j, t.ibuf.read j = none ∧ t.obuf.read j = none ∧ t.sa.read j = none ∧ t.next.read j = none ∧
    t.sorted.read j = none ∧ t.count.read j = none ∧ t.stack.read j = none

/-- 10_state.md R45: the state after hardware reset, asserted in any state, with NMAX the parameter of the instance; and the
model's reset state is one. -/
def Obligations.HardwareResetValues : Prop :=
  State.reset.HoldsResetValues ∧
  ∀ (s : State) (rest : List Event), s.schedule = .hardReset :: rest →
    ∃ t, step s = .next t ∧ t.HoldsResetValues ∧ t.nmax = s.nmax

/-- Hardware reset abandons a busy command at any time: the block is idle, DONE stays 0, and it accepts a command at once
(70_reset_and_hazards.md R250). -/
def Obligations.HardwareResetAbandonsTheCommand : Prop :=
  ∀ (s : State) (w : Word) (rest : List Event), s.schedule = .hardReset :: .host (.regWrite 0 w) :: rest →
    ∃ t u, step s = .next t ∧ t.busy = false ∧ t.done = false ∧ step t = .next u ∧ u.busy = true ∧ u.cmdl = w

/-- The state after reset meets the invariants. -/
def Obligations.ResetMeetsTheInvariants : Prop := State.reset.Inv ∧ State.reset.SorterInv

/-- Every step keeps the invariant of 10_state.md R24 to R42: the report is consistent, every memory fits its space in
canonical form, LIST is a permutation, SA is a permutation while SAV = 1, and OBUF[0..OLEN-1] is written. -/
def Obligations.EveryStepKeepsTheInvariant : Prop := ∀ s t : State, s.Inv → step s = .next t → t.Inv

/-- Every step keeps the invariant of the sorter's hidden state: between commands SP = 0, and STACK never holds an entry at or
above STKCAP (10_state.md R43; 41_css.md R128). That the stack grows upward from STACK[0] is the model's choice (log 17). -/
def Obligations.EveryStepKeepsTheSorterInvariant : Prop :=
  ∀ s t : State, s.SorterInv → step s = .next t → t.SorterInv
end

