-- ==== Sys2Proof/Laws/Memory.lean ====
section
/-! SUPPORT. The laws of an index space: what a read finds after a write, and that every operation keeps the canonical form. -/

namespace Sys2Proof.Machine

variable {α : Type}

@[simp] theorem Memory.read_nil (i : Nat) : Memory.read ([] : Memory α) i = none := rfl

theorem Memory.read_cons (j : Nat) (v : α) (m : Memory α) (i : Nat) :
    Memory.read ((j, v) :: m) i = if i = j then some v else Memory.read m i := rfl

/-- A read after a write of the same entry. -/
@[simp] theorem Memory.read_write_same (m : Memory α) (i : Nat) (v : α) : (m.write i v).read i = some v := by
  induction m with
  | nil => simp [Memory.write, Memory.read]
  | cons e m ih =>
    obtain ⟨j, u⟩ := e
    unfold Memory.write
    split_ifs with h1 h2
    · simp [Memory.read]
    · simp [Memory.read]
    · simpa [Memory.read, h2] using ih

/-- A write leaves every other entry alone. -/
theorem Memory.read_write_other (m : Memory α) {i k : Nat} (v : α) (h : k ≠ i) : (m.write i v).read k = m.read k := by
  induction m with
  | nil => simp [Memory.write, Memory.read, h]
  | cons e m ih =>
    obtain ⟨j, u⟩ := e
    unfold Memory.write
    split_ifs with h1 h2
    · simp [Memory.read, h]
    · subst h2; simp [Memory.read, h]
    · simp only [Memory.read_cons, ih]

theorem Memory.mem_write (m : Memory α) (i : Nat) (v : α) {e : Nat × α} (h : e ∈ m.write i v) : e = (i, v) ∨ e ∈ m := by
  induction m with
  | nil => simpa [Memory.write] using h
  | cons x m ih =>
    obtain ⟨j, u⟩ := x
    unfold Memory.write at h
    split_ifs at h with h1 h2
    · simpa using h
    · rcases List.mem_cons.1 h with h | h
      · exact .inl h
      · exact .inr (List.mem_cons_of_mem _ h)
    · rcases List.mem_cons.1 h with h | h
      · exact .inr (by simp [h])
      · exact (ih h).imp id (List.mem_cons_of_mem _)

/-- A write keeps the canonical form. -/
theorem Memory.wf_write (m : Memory α) (i : Nat) (v : α) (h : m.wf) : (m.write i v).wf := by
  induction m with
  | nil => simp [Memory.write, Memory.wf]
  | cons x m ih =>
    obtain ⟨j, u⟩ := x
    obtain ⟨hx, hm⟩ := List.pairwise_cons.1 h
    unfold Memory.write
    split_ifs with h1 h2
    · refine List.pairwise_cons.2 ⟨fun e he => ?_, h⟩
      rcases List.mem_cons.1 he with rfl | he
      · exact h1
      · exact h1.trans (hx e he)
    · subst h2; exact List.pairwise_cons.2 ⟨hx, hm⟩
    · refine List.pairwise_cons.2 ⟨fun e he => ?_, ih hm⟩
      rcases Memory.mem_write m i v he with rfl | he
      · show j < i; omega
      · exact hx e he

theorem Memory.mem_block {base : Nat} {vs : List α} {e : Nat × α} (h : e ∈ Memory.block base vs) :
    base ≤ e.1 ∧ e.1 < base + vs.length := by
  induction vs generalizing base with
  | nil => simp [Memory.block] at h
  | cons v vs ih =>
    rcases List.mem_cons.1 h with rfl | h
    · simp
    · have := ih h; simp only [List.length_cons]; omega

/-- A block is in canonical form. -/
theorem Memory.wf_block (base : Nat) (vs : List α) : (Memory.block base vs).wf := by
  induction vs generalizing base with
  | nil => simp [Memory.block, Memory.wf]
  | cons v vs ih =>
    refine List.pairwise_cons.2 ⟨fun e he => ?_, ih (base + 1)⟩
    have := (Memory.mem_block he).1
    show base < e.1; omega

/-- A prefix write keeps the canonical form. -/
theorem Memory.wf_writePrefix (m : Memory α) (vs : List α) (h : m.wf) : (m.writePrefix vs).wf := by
  refine List.pairwise_append.2 ⟨Memory.wf_block 0 vs, List.Pairwise.filter _ h, fun a ha b hb => ?_⟩
  have h1 := (Memory.mem_block ha).2
  have h2 := (List.mem_filter.1 hb).2
  simp only [decide_eq_true_eq] at h2
  omega

theorem Memory.mem_writePrefix {m : Memory α} {vs : List α} {e : Nat × α} (h : e ∈ m.writePrefix vs) :
    e.1 < vs.length ∨ e ∈ m := by
  rcases List.mem_append.1 h with h | h
  · left; simpa using (Memory.mem_block h).2
  · exact .inr (List.mem_filter.1 h).1

theorem Memory.read_block (base : Nat) (vs : List α) (i : Nat) :
    (Memory.block base vs).read i = if base ≤ i then vs[i - base]? else none := by
  induction vs generalizing base with
  | nil => simp [Memory.block]
  | cons v vs ih =>
    simp only [Memory.block, Memory.read_cons, ih]
    by_cases h : i = base
    · simp [h]
    · by_cases h2 : base ≤ i
      · have : i - base = (i - (base + 1)) + 1 := by omega
        have h3 : base + 1 ≤ i := by omega
        simp [h, h2, h3, this]
      · have h3 : ¬ base + 1 ≤ i := by omega
        simp [h, h2, h3]

theorem Memory.read_append (a b : Memory α) (i : Nat) : Memory.read (a ++ b) i = (Memory.read a i).or (Memory.read b i) := by
  induction a with
  | nil => simp
  | cons e a ih =>
    obtain ⟨j, v⟩ := e
    simp only [List.cons_append, Memory.read_cons, ih]
    split_ifs <;> simp

theorem Memory.read_filter_ge (m : Memory α) (n i : Nat) :
    Memory.read (m.filter (fun e => n ≤ e.1)) i = if n ≤ i then m.read i else none := by
  induction m with
  | nil => simp
  | cons e m ih =>
    obtain ⟨j, v⟩ := e
    by_cases hj : n ≤ j
    · simp only [List.filter_cons, hj, decide_true, if_true, Memory.read_cons, ih]
      by_cases hi : i = j
      · simp [hi, hj]
      · simp [hi]
    · simp only [List.filter_cons, hj, decide_false, Memory.read_cons]
      rw [if_neg (by simp), ih]
      by_cases hi : n ≤ i
      · have : i ≠ j := by omega
        simp [hi, this]
      · simp [hi]

/-- What a read finds after a prefix write: the new entry below |vs|, the old one from |vs| upward. -/
theorem Memory.read_writePrefix (m : Memory α) (vs : List α) (i : Nat) :
    (m.writePrefix vs).read i = if i < vs.length then vs[i]? else m.read i := by
  unfold Memory.writePrefix
  rw [Memory.read_append, Memory.read_block, Memory.read_filter_ge]
  by_cases h : i < vs.length
  · have : ¬ vs.length ≤ i := by omega
    simp [h, this]
  · have : vs.length ≤ i := by omega
    simp [h, this]

/-- A block read gives the bytes exactly when each of them is listed. -/
theorem Memory.readBlock_eq_some_iff (m : Memory α) (base n : Nat) (vs : List α) :
    m.readBlock base n = some vs ↔ vs.length = n ∧ ∀ k < n, m.read (base + k) = vs[k]? := by
  induction n generalizing base vs with
  | zero =>
    constructor
    · intro h; cases h; simp
    · rintro ⟨h, -⟩; cases List.length_eq_zero_iff.1 h; rfl
  | succ n ih =>
    unfold Memory.readBlock
    constructor
    · intro h
      split at h
      · cases h
      · next v hv =>
        split at h
        · cases h
        · next us hus =>
          cases h
          obtain ⟨hl, hr⟩ := (ih _ _).1 hus
          refine ⟨by simp [hl], fun k hk => ?_⟩
          rcases k with _ | k
          · simpa using hv
          · have := hr k (by omega)
            rw [show base + (k + 1) = base + 1 + k by omega, this]; simp
    · rintro ⟨hl, hr⟩
      rcases vs with _ | ⟨v, us⟩
      · simp at hl
      · have h0 : m.read base = some v := by simpa using hr 0 (by omega)
        have h1 : m.readBlock (base + 1) n = some us := by
          refine (ih _ _).2 ⟨by simpa using hl, fun k hk => ?_⟩
          have := hr (k + 1) (by omega)
          rw [show base + 1 + k = base + (k + 1) by omega, this]; simp
        simp [h0, h1]

theorem Memory.readBlock_length {m : Memory α} {base n : Nat} {vs : List α} (h : m.readBlock base n = some vs) :
    vs.length = n := ((Memory.readBlock_eq_some_iff m base n vs).1 h).1

theorem Memory.readBlock_isSome_iff (m : Memory α) (base n : Nat) :
    (m.readBlock base n).isSome = true ↔ ∀ k < n, (m.read (base + k)).isSome = true := by
  induction n generalizing base with
  | zero => simp [Memory.readBlock]
  | succ n ih =>
    have hs := ih (base + 1)
    unfold Memory.readBlock
    constructor
    · intro h k hk
      split at h
      · simp at h
      · next v hv =>
        split at h
        · simp at h
        · next us hus =>
          rcases k with _ | k
          · simp [hv]
          · have := hs.1 (by simp [hus]) k (by omega)
            rwa [show base + (k + 1) = base + 1 + k by omega]
    · intro h
      have h0 := h 0 (by omega)
      have h1 : (m.readBlock (base + 1) n).isSome = true :=
        hs.2 fun k hk => by rw [show base + 1 + k = base + (k + 1) by omega]; exact h (k + 1) (by omega)
      obtain ⟨v, hv⟩ := Option.isSome_iff_exists.1 h0
      obtain ⟨us, hus⟩ := Option.isSome_iff_exists.1 h1
      simp only [Nat.add_zero] at hv
      simp [hv, hus]

/-- A block read after a prefix write of the same length. -/
@[simp] theorem Memory.readBlock_writePrefix (m : Memory α) (vs : List α) :
    (m.writePrefix vs).readBlock 0 vs.length = some vs := by
  refine (Memory.readBlock_eq_some_iff _ _ _ _).2 ⟨rfl, fun k hk => ?_⟩
  rw [Memory.read_writePrefix]; simp [hk]

/-- A block read of a block. -/
@[simp] theorem Memory.readBlock_block (vs : List α) : (Memory.block 0 vs).readBlock 0 vs.length = some vs := by
  refine (Memory.readBlock_eq_some_iff _ _ _ _).2 ⟨rfl, fun k hk => ?_⟩
  rw [Memory.read_block]; simp

/-- The memories of `State.reset` are in canonical form. -/
theorem reset_memory_wf : State.reset.ibuf.wf ∧ State.reset.obuf.wf ∧ State.reset.sa.wf ∧ State.reset.next.wf ∧
    State.reset.sorted.wf ∧ State.reset.count.wf ∧ State.reset.stack.wf := by decide

end Sys2Proof.Machine
end

