-- ==== Sys2Proof/Laws/State.lean ====
section
/-! SUPPORT. One lemma per field per update of the state, each true by rfl, so that no proof unfolds a record update. -/

namespace Sys2Proof.Machine

@[simp] theorem State.draw_nmax (s : State) : (s.draw).nmax = s.nmax := rfl
@[simp] theorem State.draw_tieBreak (s : State) : (s.draw).tieBreak = s.tieBreak := rfl
@[simp] theorem State.draw_arg (s : State) : (s.draw).arg = s.arg := rfl
@[simp] theorem State.draw_argv (s : State) : (s.draw).argv = s.argv := rfl
@[simp] theorem State.draw_busy (s : State) : (s.draw).busy = s.busy := rfl
@[simp] theorem State.draw_done (s : State) : (s.draw).done = s.done := rfl
@[simp] theorem State.draw_err (s : State) : (s.draw).err = s.err := rfl
@[simp] theorem State.draw_cause (s : State) : (s.draw).cause = s.cause := rfl
@[simp] theorem State.draw_sav (s : State) : (s.draw).sav = s.sav := rfl
@[simp] theorem State.draw_ovr (s : State) : (s.draw).ovr = s.ovr := rfl
@[simp] theorem State.draw_result (s : State) : (s.draw).result = s.result := rfl
@[simp] theorem State.draw_olen (s : State) : (s.draw).olen = s.olen := rfl
@[simp] theorem State.draw_n (s : State) : (s.draw).n = s.n := rfl
@[simp] theorem State.draw_cmdl (s : State) : (s.draw).cmdl = s.cmdl := rfl
@[simp] theorem State.draw_argl (s : State) : (s.draw).argl = s.argl := rfl
@[simp] theorem State.draw_avl (s : State) : (s.draw).avl = s.avl := rfl
@[simp] theorem State.draw_ibuf (s : State) : (s.draw).ibuf = s.ibuf := rfl
@[simp] theorem State.draw_obuf (s : State) : (s.draw).obuf = s.obuf := rfl
@[simp] theorem State.draw_sa (s : State) : (s.draw).sa = s.sa := rfl
@[simp] theorem State.draw_next (s : State) : (s.draw).next = s.next := rfl
@[simp] theorem State.draw_sorted (s : State) : (s.draw).sorted = s.sorted := rfl
@[simp] theorem State.draw_count (s : State) : (s.draw).count = s.count := rfl
@[simp] theorem State.draw_list (s : State) : (s.draw).list = s.list := rfl
@[simp] theorem State.draw_stack (s : State) : (s.draw).stack = s.stack := rfl
@[simp] theorem State.draw_sp (s : State) : (s.draw).sp = s.sp := rfl
@[simp] theorem State.draw_cur (s : State) : (s.draw).cur = s.cur := rfl
@[simp] theorem State.draw_schedule (s : State) : (s.draw).schedule = s.schedule := rfl
@[simp] theorem State.draw_replies (s : State) : (s.draw).replies = s.replies := rfl
@[simp] theorem State.draw_drawn (s : State) : (s.draw).drawn = s.drawn + 1 := rfl

@[simp] theorem State.succeed_nmax (s : State) : (s.succeed).nmax = s.nmax := rfl
@[simp] theorem State.succeed_tieBreak (s : State) : (s.succeed).tieBreak = s.tieBreak := rfl
@[simp] theorem State.succeed_arg (s : State) : (s.succeed).arg = s.arg := rfl
@[simp] theorem State.succeed_argv (s : State) : (s.succeed).argv = s.argv := rfl
@[simp] theorem State.succeed_busy (s : State) : (s.succeed).busy = false := rfl
@[simp] theorem State.succeed_done (s : State) : (s.succeed).done = true := rfl
@[simp] theorem State.succeed_err (s : State) : (s.succeed).err = false := rfl
@[simp] theorem State.succeed_cause (s : State) : (s.succeed).cause = Cause.none := rfl
@[simp] theorem State.succeed_sav (s : State) : (s.succeed).sav = s.sav := rfl
@[simp] theorem State.succeed_ovr (s : State) : (s.succeed).ovr = s.ovr := rfl
@[simp] theorem State.succeed_result (s : State) : (s.succeed).result = s.result := rfl
@[simp] theorem State.succeed_olen (s : State) : (s.succeed).olen = s.olen := rfl
@[simp] theorem State.succeed_n (s : State) : (s.succeed).n = s.n := rfl
@[simp] theorem State.succeed_cmdl (s : State) : (s.succeed).cmdl = s.cmdl := rfl
@[simp] theorem State.succeed_argl (s : State) : (s.succeed).argl = s.argl := rfl
@[simp] theorem State.succeed_avl (s : State) : (s.succeed).avl = s.avl := rfl
@[simp] theorem State.succeed_ibuf (s : State) : (s.succeed).ibuf = s.ibuf := rfl
@[simp] theorem State.succeed_obuf (s : State) : (s.succeed).obuf = s.obuf := rfl
@[simp] theorem State.succeed_sa (s : State) : (s.succeed).sa = s.sa := rfl
@[simp] theorem State.succeed_next (s : State) : (s.succeed).next = s.next := rfl
@[simp] theorem State.succeed_sorted (s : State) : (s.succeed).sorted = s.sorted := rfl
@[simp] theorem State.succeed_count (s : State) : (s.succeed).count = s.count := rfl
@[simp] theorem State.succeed_list (s : State) : (s.succeed).list = s.list := rfl
@[simp] theorem State.succeed_stack (s : State) : (s.succeed).stack = s.stack := rfl
@[simp] theorem State.succeed_sp (s : State) : (s.succeed).sp = s.sp := rfl
@[simp] theorem State.succeed_cur (s : State) : (s.succeed).cur = s.cur := rfl
@[simp] theorem State.succeed_schedule (s : State) : (s.succeed).schedule = s.schedule := rfl
@[simp] theorem State.succeed_replies (s : State) : (s.succeed).replies = s.replies := rfl
@[simp] theorem State.succeed_drawn (s : State) : (s.succeed).drawn = s.drawn := rfl

@[simp] theorem State.fail_nmax (s : State) (c : Cause) : (s.fail c).nmax = s.nmax := rfl
@[simp] theorem State.fail_tieBreak (s : State) (c : Cause) : (s.fail c).tieBreak = s.tieBreak := rfl
@[simp] theorem State.fail_arg (s : State) (c : Cause) : (s.fail c).arg = s.arg := rfl
@[simp] theorem State.fail_argv (s : State) (c : Cause) : (s.fail c).argv = s.argv := rfl
@[simp] theorem State.fail_busy (s : State) (c : Cause) : (s.fail c).busy = false := rfl
@[simp] theorem State.fail_done (s : State) (c : Cause) : (s.fail c).done = true := rfl
@[simp] theorem State.fail_err (s : State) (c : Cause) : (s.fail c).err = true := rfl
@[simp] theorem State.fail_cause (s : State) (c : Cause) : (s.fail c).cause = c := rfl
@[simp] theorem State.fail_sav (s : State) (c : Cause) : (s.fail c).sav = s.sav := rfl
@[simp] theorem State.fail_ovr (s : State) (c : Cause) : (s.fail c).ovr = s.ovr := rfl
@[simp] theorem State.fail_result (s : State) (c : Cause) : (s.fail c).result = s.result := rfl
@[simp] theorem State.fail_olen (s : State) (c : Cause) : (s.fail c).olen = s.olen := rfl
@[simp] theorem State.fail_n (s : State) (c : Cause) : (s.fail c).n = s.n := rfl
@[simp] theorem State.fail_cmdl (s : State) (c : Cause) : (s.fail c).cmdl = s.cmdl := rfl
@[simp] theorem State.fail_argl (s : State) (c : Cause) : (s.fail c).argl = s.argl := rfl
@[simp] theorem State.fail_avl (s : State) (c : Cause) : (s.fail c).avl = s.avl := rfl
@[simp] theorem State.fail_ibuf (s : State) (c : Cause) : (s.fail c).ibuf = s.ibuf := rfl
@[simp] theorem State.fail_obuf (s : State) (c : Cause) : (s.fail c).obuf = s.obuf := rfl
@[simp] theorem State.fail_sa (s : State) (c : Cause) : (s.fail c).sa = s.sa := rfl
@[simp] theorem State.fail_next (s : State) (c : Cause) : (s.fail c).next = s.next := rfl
@[simp] theorem State.fail_sorted (s : State) (c : Cause) : (s.fail c).sorted = s.sorted := rfl
@[simp] theorem State.fail_count (s : State) (c : Cause) : (s.fail c).count = s.count := rfl
@[simp] theorem State.fail_list (s : State) (c : Cause) : (s.fail c).list = s.list := rfl
@[simp] theorem State.fail_stack (s : State) (c : Cause) : (s.fail c).stack = s.stack := rfl
@[simp] theorem State.fail_sp (s : State) (c : Cause) : (s.fail c).sp = s.sp := rfl
@[simp] theorem State.fail_cur (s : State) (c : Cause) : (s.fail c).cur = s.cur := rfl
@[simp] theorem State.fail_schedule (s : State) (c : Cause) : (s.fail c).schedule = s.schedule := rfl
@[simp] theorem State.fail_replies (s : State) (c : Cause) : (s.fail c).replies = s.replies := rfl
@[simp] theorem State.fail_drawn (s : State) (c : Cause) : (s.fail c).drawn = s.drawn := rfl

@[simp] theorem State.clearReport_nmax (s : State) : (s.clearReport).nmax = s.nmax := rfl
@[simp] theorem State.clearReport_tieBreak (s : State) : (s.clearReport).tieBreak = s.tieBreak := rfl
@[simp] theorem State.clearReport_arg (s : State) : (s.clearReport).arg = s.arg := rfl
@[simp] theorem State.clearReport_argv (s : State) : (s.clearReport).argv = s.argv := rfl
@[simp] theorem State.clearReport_busy (s : State) : (s.clearReport).busy = s.busy := rfl
@[simp] theorem State.clearReport_done (s : State) : (s.clearReport).done = false := rfl
@[simp] theorem State.clearReport_err (s : State) : (s.clearReport).err = false := rfl
@[simp] theorem State.clearReport_cause (s : State) : (s.clearReport).cause = Cause.none := rfl
@[simp] theorem State.clearReport_sav (s : State) : (s.clearReport).sav = s.sav := rfl
@[simp] theorem State.clearReport_ovr (s : State) : (s.clearReport).ovr = s.ovr := rfl
@[simp] theorem State.clearReport_result (s : State) : (s.clearReport).result = s.result := rfl
@[simp] theorem State.clearReport_olen (s : State) : (s.clearReport).olen = s.olen := rfl
@[simp] theorem State.clearReport_n (s : State) : (s.clearReport).n = s.n := rfl
@[simp] theorem State.clearReport_cmdl (s : State) : (s.clearReport).cmdl = s.cmdl := rfl
@[simp] theorem State.clearReport_argl (s : State) : (s.clearReport).argl = s.argl := rfl
@[simp] theorem State.clearReport_avl (s : State) : (s.clearReport).avl = s.avl := rfl
@[simp] theorem State.clearReport_ibuf (s : State) : (s.clearReport).ibuf = s.ibuf := rfl
@[simp] theorem State.clearReport_obuf (s : State) : (s.clearReport).obuf = s.obuf := rfl
@[simp] theorem State.clearReport_sa (s : State) : (s.clearReport).sa = s.sa := rfl
@[simp] theorem State.clearReport_next (s : State) : (s.clearReport).next = s.next := rfl
@[simp] theorem State.clearReport_sorted (s : State) : (s.clearReport).sorted = s.sorted := rfl
@[simp] theorem State.clearReport_count (s : State) : (s.clearReport).count = s.count := rfl
@[simp] theorem State.clearReport_list (s : State) : (s.clearReport).list = s.list := rfl
@[simp] theorem State.clearReport_stack (s : State) : (s.clearReport).stack = s.stack := rfl
@[simp] theorem State.clearReport_sp (s : State) : (s.clearReport).sp = s.sp := rfl
@[simp] theorem State.clearReport_cur (s : State) : (s.clearReport).cur = s.cur := rfl
@[simp] theorem State.clearReport_schedule (s : State) : (s.clearReport).schedule = s.schedule := rfl
@[simp] theorem State.clearReport_replies (s : State) : (s.clearReport).replies = s.replies := rfl
@[simp] theorem State.clearReport_drawn (s : State) : (s.clearReport).drawn = s.drawn := rfl

@[simp] theorem State.issue_nmax (s : State) (w : Word) : (s.issue w).nmax = s.nmax := rfl
@[simp] theorem State.issue_tieBreak (s : State) (w : Word) : (s.issue w).tieBreak = s.tieBreak := rfl
@[simp] theorem State.issue_arg (s : State) (w : Word) : (s.issue w).arg = s.arg := rfl
@[simp] theorem State.issue_argv (s : State) (w : Word) : (s.issue w).argv = if consumesOperand w then false else s.argv := rfl
@[simp] theorem State.issue_busy (s : State) (w : Word) : (s.issue w).busy = true := rfl
@[simp] theorem State.issue_done (s : State) (w : Word) : (s.issue w).done = false := rfl
@[simp] theorem State.issue_err (s : State) (w : Word) : (s.issue w).err = false := rfl
@[simp] theorem State.issue_cause (s : State) (w : Word) : (s.issue w).cause = Cause.none := rfl
@[simp] theorem State.issue_sav (s : State) (w : Word) : (s.issue w).sav = s.sav := rfl
@[simp] theorem State.issue_ovr (s : State) (w : Word) : (s.issue w).ovr = s.ovr := rfl
@[simp] theorem State.issue_result (s : State) (w : Word) : (s.issue w).result = s.result := rfl
@[simp] theorem State.issue_olen (s : State) (w : Word) : (s.issue w).olen = s.olen := rfl
@[simp] theorem State.issue_n (s : State) (w : Word) : (s.issue w).n = s.n := rfl
@[simp] theorem State.issue_cmdl (s : State) (w : Word) : (s.issue w).cmdl = w := rfl
@[simp] theorem State.issue_argl (s : State) (w : Word) : (s.issue w).argl = s.arg := rfl
@[simp] theorem State.issue_avl (s : State) (w : Word) : (s.issue w).avl = s.argv := rfl
@[simp] theorem State.issue_ibuf (s : State) (w : Word) : (s.issue w).ibuf = s.ibuf := rfl
@[simp] theorem State.issue_obuf (s : State) (w : Word) : (s.issue w).obuf = s.obuf := rfl
@[simp] theorem State.issue_sa (s : State) (w : Word) : (s.issue w).sa = s.sa := rfl
@[simp] theorem State.issue_next (s : State) (w : Word) : (s.issue w).next = s.next := rfl
@[simp] theorem State.issue_sorted (s : State) (w : Word) : (s.issue w).sorted = s.sorted := rfl
@[simp] theorem State.issue_count (s : State) (w : Word) : (s.issue w).count = s.count := rfl
@[simp] theorem State.issue_list (s : State) (w : Word) : (s.issue w).list = s.list := rfl
@[simp] theorem State.issue_stack (s : State) (w : Word) : (s.issue w).stack = s.stack := rfl
@[simp] theorem State.issue_sp (s : State) (w : Word) : (s.issue w).sp = s.sp := rfl
@[simp] theorem State.issue_cur (s : State) (w : Word) : (s.issue w).cur = s.cur := rfl
@[simp] theorem State.issue_schedule (s : State) (w : Word) : (s.issue w).schedule = s.schedule := rfl
@[simp] theorem State.issue_replies (s : State) (w : Word) : (s.issue w).replies = s.replies := rfl
@[simp] theorem State.issue_drawn (s : State) (w : Word) : (s.issue w).drawn = s.drawn := rfl

@[simp] theorem State.overrun_nmax (s : State) : (s.overrun).nmax = s.nmax := rfl
@[simp] theorem State.overrun_tieBreak (s : State) : (s.overrun).tieBreak = s.tieBreak := rfl
@[simp] theorem State.overrun_arg (s : State) : (s.overrun).arg = s.arg := rfl
@[simp] theorem State.overrun_argv (s : State) : (s.overrun).argv = s.argv := rfl
@[simp] theorem State.overrun_busy (s : State) : (s.overrun).busy = s.busy := rfl
@[simp] theorem State.overrun_done (s : State) : (s.overrun).done = s.done := rfl
@[simp] theorem State.overrun_err (s : State) : (s.overrun).err = s.err := rfl
@[simp] theorem State.overrun_cause (s : State) : (s.overrun).cause = s.cause := rfl
@[simp] theorem State.overrun_sav (s : State) : (s.overrun).sav = s.sav := rfl
@[simp] theorem State.overrun_ovr (s : State) : (s.overrun).ovr = true := rfl
@[simp] theorem State.overrun_result (s : State) : (s.overrun).result = s.result := rfl
@[simp] theorem State.overrun_olen (s : State) : (s.overrun).olen = s.olen := rfl
@[simp] theorem State.overrun_n (s : State) : (s.overrun).n = s.n := rfl
@[simp] theorem State.overrun_cmdl (s : State) : (s.overrun).cmdl = s.cmdl := rfl
@[simp] theorem State.overrun_argl (s : State) : (s.overrun).argl = s.argl := rfl
@[simp] theorem State.overrun_avl (s : State) : (s.overrun).avl = s.avl := rfl
@[simp] theorem State.overrun_ibuf (s : State) : (s.overrun).ibuf = s.ibuf := rfl
@[simp] theorem State.overrun_obuf (s : State) : (s.overrun).obuf = s.obuf := rfl
@[simp] theorem State.overrun_sa (s : State) : (s.overrun).sa = s.sa := rfl
@[simp] theorem State.overrun_next (s : State) : (s.overrun).next = s.next := rfl
@[simp] theorem State.overrun_sorted (s : State) : (s.overrun).sorted = s.sorted := rfl
@[simp] theorem State.overrun_count (s : State) : (s.overrun).count = s.count := rfl
@[simp] theorem State.overrun_list (s : State) : (s.overrun).list = s.list := rfl
@[simp] theorem State.overrun_stack (s : State) : (s.overrun).stack = s.stack := rfl
@[simp] theorem State.overrun_sp (s : State) : (s.overrun).sp = s.sp := rfl
@[simp] theorem State.overrun_cur (s : State) : (s.overrun).cur = s.cur := rfl
@[simp] theorem State.overrun_schedule (s : State) : (s.overrun).schedule = s.schedule := rfl
@[simp] theorem State.overrun_replies (s : State) : (s.overrun).replies = s.replies := rfl
@[simp] theorem State.overrun_drawn (s : State) : (s.overrun).drawn = s.drawn := rfl

@[simp] theorem State.reply_nmax (s : State) (r : Reply) : (s.reply r).nmax = s.nmax := rfl
@[simp] theorem State.reply_tieBreak (s : State) (r : Reply) : (s.reply r).tieBreak = s.tieBreak := rfl
@[simp] theorem State.reply_arg (s : State) (r : Reply) : (s.reply r).arg = s.arg := rfl
@[simp] theorem State.reply_argv (s : State) (r : Reply) : (s.reply r).argv = s.argv := rfl
@[simp] theorem State.reply_busy (s : State) (r : Reply) : (s.reply r).busy = s.busy := rfl
@[simp] theorem State.reply_done (s : State) (r : Reply) : (s.reply r).done = s.done := rfl
@[simp] theorem State.reply_err (s : State) (r : Reply) : (s.reply r).err = s.err := rfl
@[simp] theorem State.reply_cause (s : State) (r : Reply) : (s.reply r).cause = s.cause := rfl
@[simp] theorem State.reply_sav (s : State) (r : Reply) : (s.reply r).sav = s.sav := rfl
@[simp] theorem State.reply_ovr (s : State) (r : Reply) : (s.reply r).ovr = s.ovr := rfl
@[simp] theorem State.reply_result (s : State) (r : Reply) : (s.reply r).result = s.result := rfl
@[simp] theorem State.reply_olen (s : State) (r : Reply) : (s.reply r).olen = s.olen := rfl
@[simp] theorem State.reply_n (s : State) (r : Reply) : (s.reply r).n = s.n := rfl
@[simp] theorem State.reply_cmdl (s : State) (r : Reply) : (s.reply r).cmdl = s.cmdl := rfl
@[simp] theorem State.reply_argl (s : State) (r : Reply) : (s.reply r).argl = s.argl := rfl
@[simp] theorem State.reply_avl (s : State) (r : Reply) : (s.reply r).avl = s.avl := rfl
@[simp] theorem State.reply_ibuf (s : State) (r : Reply) : (s.reply r).ibuf = s.ibuf := rfl
@[simp] theorem State.reply_obuf (s : State) (r : Reply) : (s.reply r).obuf = s.obuf := rfl
@[simp] theorem State.reply_sa (s : State) (r : Reply) : (s.reply r).sa = s.sa := rfl
@[simp] theorem State.reply_next (s : State) (r : Reply) : (s.reply r).next = s.next := rfl
@[simp] theorem State.reply_sorted (s : State) (r : Reply) : (s.reply r).sorted = s.sorted := rfl
@[simp] theorem State.reply_count (s : State) (r : Reply) : (s.reply r).count = s.count := rfl
@[simp] theorem State.reply_list (s : State) (r : Reply) : (s.reply r).list = s.list := rfl
@[simp] theorem State.reply_stack (s : State) (r : Reply) : (s.reply r).stack = s.stack := rfl
@[simp] theorem State.reply_sp (s : State) (r : Reply) : (s.reply r).sp = s.sp := rfl
@[simp] theorem State.reply_cur (s : State) (r : Reply) : (s.reply r).cur = s.cur := rfl
@[simp] theorem State.reply_schedule (s : State) (r : Reply) : (s.reply r).schedule = s.schedule := rfl
@[simp] theorem State.reply_replies (s : State) (r : Reply) : (s.reply r).replies = r :: s.replies := rfl
@[simp] theorem State.reply_drawn (s : State) (r : Reply) : (s.reply r).drawn = s.drawn := rfl

@[simp] theorem State.softReset_nmax (s : State) : (s.softReset).nmax = s.nmax := rfl
@[simp] theorem State.softReset_tieBreak (s : State) : (s.softReset).tieBreak = s.tieBreak := rfl
@[simp] theorem State.softReset_arg (s : State) : (s.softReset).arg = 0 := rfl
@[simp] theorem State.softReset_argv (s : State) : (s.softReset).argv = false := rfl
@[simp] theorem State.softReset_busy (s : State) : (s.softReset).busy = s.busy := rfl
@[simp] theorem State.softReset_done (s : State) : (s.softReset).done = s.done := rfl
@[simp] theorem State.softReset_err (s : State) : (s.softReset).err = s.err := rfl
@[simp] theorem State.softReset_cause (s : State) : (s.softReset).cause = s.cause := rfl
@[simp] theorem State.softReset_sav (s : State) : (s.softReset).sav = false := rfl
@[simp] theorem State.softReset_ovr (s : State) : (s.softReset).ovr = false := rfl
@[simp] theorem State.softReset_result (s : State) : (s.softReset).result = 0 := rfl
@[simp] theorem State.softReset_olen (s : State) : (s.softReset).olen = 0 := rfl
@[simp] theorem State.softReset_n (s : State) : (s.softReset).n = 0 := rfl
@[simp] theorem State.softReset_cmdl (s : State) : (s.softReset).cmdl = s.cmdl := rfl
@[simp] theorem State.softReset_argl (s : State) : (s.softReset).argl = 0 := rfl
@[simp] theorem State.softReset_avl (s : State) : (s.softReset).avl = false := rfl
@[simp] theorem State.softReset_ibuf (s : State) : (s.softReset).ibuf = s.ibuf := rfl
@[simp] theorem State.softReset_obuf (s : State) : (s.softReset).obuf = s.obuf := rfl
@[simp] theorem State.softReset_sa (s : State) : (s.softReset).sa = s.sa := rfl
@[simp] theorem State.softReset_next (s : State) : (s.softReset).next = s.next := rfl
@[simp] theorem State.softReset_sorted (s : State) : (s.softReset).sorted = s.sorted := rfl
@[simp] theorem State.softReset_count (s : State) : (s.softReset).count = s.count := rfl
@[simp] theorem State.softReset_list (s : State) : (s.softReset).list = identityList := rfl
@[simp] theorem State.softReset_stack (s : State) : (s.softReset).stack = s.stack := rfl
@[simp] theorem State.softReset_sp (s : State) : (s.softReset).sp = 0 := rfl
@[simp] theorem State.softReset_cur (s : State) : (s.softReset).cur = s.cur := rfl
@[simp] theorem State.softReset_schedule (s : State) : (s.softReset).schedule = s.schedule := rfl
@[simp] theorem State.softReset_replies (s : State) : (s.softReset).replies = s.replies := rfl
@[simp] theorem State.softReset_drawn (s : State) : (s.softReset).drawn = s.drawn := rfl

@[simp] theorem State.hardReset_nmax (s : State) : (s.hardReset).nmax = s.nmax := rfl
@[simp] theorem State.hardReset_tieBreak (s : State) : (s.hardReset).tieBreak = s.tieBreak := rfl
@[simp] theorem State.hardReset_arg (s : State) : (s.hardReset).arg = State.reset.arg := rfl
@[simp] theorem State.hardReset_argv (s : State) : (s.hardReset).argv = State.reset.argv := rfl
@[simp] theorem State.hardReset_busy (s : State) : (s.hardReset).busy = State.reset.busy := rfl
@[simp] theorem State.hardReset_done (s : State) : (s.hardReset).done = State.reset.done := rfl
@[simp] theorem State.hardReset_err (s : State) : (s.hardReset).err = State.reset.err := rfl
@[simp] theorem State.hardReset_cause (s : State) : (s.hardReset).cause = State.reset.cause := rfl
@[simp] theorem State.hardReset_sav (s : State) : (s.hardReset).sav = State.reset.sav := rfl
@[simp] theorem State.hardReset_ovr (s : State) : (s.hardReset).ovr = State.reset.ovr := rfl
@[simp] theorem State.hardReset_result (s : State) : (s.hardReset).result = State.reset.result := rfl
@[simp] theorem State.hardReset_olen (s : State) : (s.hardReset).olen = State.reset.olen := rfl
@[simp] theorem State.hardReset_n (s : State) : (s.hardReset).n = State.reset.n := rfl
@[simp] theorem State.hardReset_cmdl (s : State) : (s.hardReset).cmdl = State.reset.cmdl := rfl
@[simp] theorem State.hardReset_argl (s : State) : (s.hardReset).argl = State.reset.argl := rfl
@[simp] theorem State.hardReset_avl (s : State) : (s.hardReset).avl = State.reset.avl := rfl
@[simp] theorem State.hardReset_ibuf (s : State) : (s.hardReset).ibuf = State.reset.ibuf := rfl
@[simp] theorem State.hardReset_obuf (s : State) : (s.hardReset).obuf = State.reset.obuf := rfl
@[simp] theorem State.hardReset_sa (s : State) : (s.hardReset).sa = State.reset.sa := rfl
@[simp] theorem State.hardReset_next (s : State) : (s.hardReset).next = State.reset.next := rfl
@[simp] theorem State.hardReset_sorted (s : State) : (s.hardReset).sorted = State.reset.sorted := rfl
@[simp] theorem State.hardReset_count (s : State) : (s.hardReset).count = State.reset.count := rfl
@[simp] theorem State.hardReset_list (s : State) : (s.hardReset).list = State.reset.list := rfl
@[simp] theorem State.hardReset_stack (s : State) : (s.hardReset).stack = State.reset.stack := rfl
@[simp] theorem State.hardReset_sp (s : State) : (s.hardReset).sp = State.reset.sp := rfl
@[simp] theorem State.hardReset_cur (s : State) : (s.hardReset).cur = State.reset.cur := rfl
@[simp] theorem State.hardReset_schedule (s : State) : (s.hardReset).schedule = s.schedule := rfl
@[simp] theorem State.hardReset_replies (s : State) : (s.hardReset).replies = s.replies := rfl
@[simp] theorem State.hardReset_drawn (s : State) : (s.hardReset).drawn = s.drawn := rfl

@[simp] theorem State.writeMessage_nmax (s : State) (bytes : List Byte) : (s.writeMessage bytes).nmax = s.nmax := rfl
@[simp] theorem State.writeMessage_tieBreak (s : State) (bytes : List Byte) : (s.writeMessage bytes).tieBreak = s.tieBreak := rfl
@[simp] theorem State.writeMessage_arg (s : State) (bytes : List Byte) : (s.writeMessage bytes).arg = s.arg := rfl
@[simp] theorem State.writeMessage_argv (s : State) (bytes : List Byte) : (s.writeMessage bytes).argv = s.argv := rfl
@[simp] theorem State.writeMessage_busy (s : State) (bytes : List Byte) : (s.writeMessage bytes).busy = s.busy := rfl
@[simp] theorem State.writeMessage_done (s : State) (bytes : List Byte) : (s.writeMessage bytes).done = s.done := rfl
@[simp] theorem State.writeMessage_err (s : State) (bytes : List Byte) : (s.writeMessage bytes).err = s.err := rfl
@[simp] theorem State.writeMessage_cause (s : State) (bytes : List Byte) : (s.writeMessage bytes).cause = s.cause := rfl
@[simp] theorem State.writeMessage_sav (s : State) (bytes : List Byte) : (s.writeMessage bytes).sav = s.sav := rfl
@[simp] theorem State.writeMessage_ovr (s : State) (bytes : List Byte) : (s.writeMessage bytes).ovr = s.ovr := rfl
@[simp] theorem State.writeMessage_result (s : State) (bytes : List Byte) : (s.writeMessage bytes).result = s.result := rfl
@[simp] theorem State.writeMessage_olen (s : State) (bytes : List Byte) : (s.writeMessage bytes).olen = BitVec.ofNat 32 bytes.length := rfl
@[simp] theorem State.writeMessage_n (s : State) (bytes : List Byte) : (s.writeMessage bytes).n = s.n := rfl
@[simp] theorem State.writeMessage_cmdl (s : State) (bytes : List Byte) : (s.writeMessage bytes).cmdl = s.cmdl := rfl
@[simp] theorem State.writeMessage_argl (s : State) (bytes : List Byte) : (s.writeMessage bytes).argl = s.argl := rfl
@[simp] theorem State.writeMessage_avl (s : State) (bytes : List Byte) : (s.writeMessage bytes).avl = s.avl := rfl
@[simp] theorem State.writeMessage_ibuf (s : State) (bytes : List Byte) : (s.writeMessage bytes).ibuf = s.ibuf := rfl
@[simp] theorem State.writeMessage_obuf (s : State) (bytes : List Byte) : (s.writeMessage bytes).obuf = s.obuf.writePrefix bytes := rfl
@[simp] theorem State.writeMessage_sa (s : State) (bytes : List Byte) : (s.writeMessage bytes).sa = s.sa := rfl
@[simp] theorem State.writeMessage_next (s : State) (bytes : List Byte) : (s.writeMessage bytes).next = s.next := rfl
@[simp] theorem State.writeMessage_sorted (s : State) (bytes : List Byte) : (s.writeMessage bytes).sorted = s.sorted := rfl
@[simp] theorem State.writeMessage_count (s : State) (bytes : List Byte) : (s.writeMessage bytes).count = s.count := rfl
@[simp] theorem State.writeMessage_list (s : State) (bytes : List Byte) : (s.writeMessage bytes).list = s.list := rfl
@[simp] theorem State.writeMessage_stack (s : State) (bytes : List Byte) : (s.writeMessage bytes).stack = s.stack := rfl
@[simp] theorem State.writeMessage_sp (s : State) (bytes : List Byte) : (s.writeMessage bytes).sp = s.sp := rfl
@[simp] theorem State.writeMessage_cur (s : State) (bytes : List Byte) : (s.writeMessage bytes).cur = s.cur := rfl
@[simp] theorem State.writeMessage_schedule (s : State) (bytes : List Byte) : (s.writeMessage bytes).schedule = s.schedule := rfl
@[simp] theorem State.writeMessage_replies (s : State) (bytes : List Byte) : (s.writeMessage bytes).replies = s.replies := rfl
@[simp] theorem State.writeMessage_drawn (s : State) (bytes : List Byte) : (s.writeMessage bytes).drawn = s.drawn := rfl

@[simp] theorem State.buildSuffixArray_nmax (s : State) (text : List Byte) : (s.buildSuffixArray text).nmax = s.nmax := rfl
@[simp] theorem State.buildSuffixArray_tieBreak (s : State) (text : List Byte) : (s.buildSuffixArray text).tieBreak = s.tieBreak := rfl
@[simp] theorem State.buildSuffixArray_arg (s : State) (text : List Byte) : (s.buildSuffixArray text).arg = s.arg := rfl
@[simp] theorem State.buildSuffixArray_argv (s : State) (text : List Byte) : (s.buildSuffixArray text).argv = s.argv := rfl
@[simp] theorem State.buildSuffixArray_busy (s : State) (text : List Byte) : (s.buildSuffixArray text).busy = s.busy := rfl
@[simp] theorem State.buildSuffixArray_done (s : State) (text : List Byte) : (s.buildSuffixArray text).done = s.done := rfl
@[simp] theorem State.buildSuffixArray_err (s : State) (text : List Byte) : (s.buildSuffixArray text).err = s.err := rfl
@[simp] theorem State.buildSuffixArray_cause (s : State) (text : List Byte) : (s.buildSuffixArray text).cause = s.cause := rfl
@[simp] theorem State.buildSuffixArray_sav (s : State) (text : List Byte) : (s.buildSuffixArray text).sav = true := rfl
@[simp] theorem State.buildSuffixArray_ovr (s : State) (text : List Byte) : (s.buildSuffixArray text).ovr = s.ovr := rfl
@[simp] theorem State.buildSuffixArray_result (s : State) (text : List Byte) : (s.buildSuffixArray text).result = s.result := rfl
@[simp] theorem State.buildSuffixArray_olen (s : State) (text : List Byte) : (s.buildSuffixArray text).olen = s.olen := rfl
@[simp] theorem State.buildSuffixArray_n (s : State) (text : List Byte) : (s.buildSuffixArray text).n = BitVec.ofNat 32 text.length := rfl
@[simp] theorem State.buildSuffixArray_cmdl (s : State) (text : List Byte) : (s.buildSuffixArray text).cmdl = s.cmdl := rfl
@[simp] theorem State.buildSuffixArray_argl (s : State) (text : List Byte) : (s.buildSuffixArray text).argl = s.argl := rfl
@[simp] theorem State.buildSuffixArray_avl (s : State) (text : List Byte) : (s.buildSuffixArray text).avl = s.avl := rfl
@[simp] theorem State.buildSuffixArray_ibuf (s : State) (text : List Byte) : (s.buildSuffixArray text).ibuf = s.ibuf := rfl
@[simp] theorem State.buildSuffixArray_obuf (s : State) (text : List Byte) : (s.buildSuffixArray text).obuf = s.obuf := rfl
@[simp] theorem State.buildSuffixArray_sa (s : State) (text : List Byte) : (s.buildSuffixArray text).sa = Memory.block 0 ((s.suffixOrder text).map (BitVec.ofNat 32)) := rfl
@[simp] theorem State.buildSuffixArray_next (s : State) (text : List Byte) : (s.buildSuffixArray text).next = s.next := rfl
@[simp] theorem State.buildSuffixArray_sorted (s : State) (text : List Byte) : (s.buildSuffixArray text).sorted = s.sorted := rfl
@[simp] theorem State.buildSuffixArray_count (s : State) (text : List Byte) : (s.buildSuffixArray text).count = s.count := rfl
@[simp] theorem State.buildSuffixArray_list (s : State) (text : List Byte) : (s.buildSuffixArray text).list = s.list := rfl
@[simp] theorem State.buildSuffixArray_stack (s : State) (text : List Byte) : (s.buildSuffixArray text).stack = (runSort text s.stack s.cur).mem := rfl
@[simp] theorem State.buildSuffixArray_sp (s : State) (text : List Byte) : (s.buildSuffixArray text).sp = BitVec.ofNat 32 (runSort text s.stack s.cur).items.length := rfl
@[simp] theorem State.buildSuffixArray_schedule (s : State) (text : List Byte) : (s.buildSuffixArray text).schedule = s.schedule := rfl
@[simp] theorem State.buildSuffixArray_replies (s : State) (text : List Byte) : (s.buildSuffixArray text).replies = s.replies := rfl
@[simp] theorem State.buildSuffixArray_drawn (s : State) (text : List Byte) : (s.buildSuffixArray text).drawn = s.drawn := rfl

@[simp] theorem State.writeTransform_nmax (s : State) (text : List Byte) : (s.writeTransform text).nmax = s.nmax := rfl
@[simp] theorem State.writeTransform_tieBreak (s : State) (text : List Byte) : (s.writeTransform text).tieBreak = s.tieBreak := rfl
@[simp] theorem State.writeTransform_arg (s : State) (text : List Byte) : (s.writeTransform text).arg = s.arg := rfl
@[simp] theorem State.writeTransform_argv (s : State) (text : List Byte) : (s.writeTransform text).argv = s.argv := rfl
@[simp] theorem State.writeTransform_busy (s : State) (text : List Byte) : (s.writeTransform text).busy = s.busy := rfl
@[simp] theorem State.writeTransform_done (s : State) (text : List Byte) : (s.writeTransform text).done = s.done := rfl
@[simp] theorem State.writeTransform_err (s : State) (text : List Byte) : (s.writeTransform text).err = s.err := rfl
@[simp] theorem State.writeTransform_cause (s : State) (text : List Byte) : (s.writeTransform text).cause = s.cause := rfl
@[simp] theorem State.writeTransform_sav (s : State) (text : List Byte) : (s.writeTransform text).sav = true := rfl
@[simp] theorem State.writeTransform_ovr (s : State) (text : List Byte) : (s.writeTransform text).ovr = s.ovr := rfl
@[simp] theorem State.writeTransform_result (s : State) (text : List Byte) : (s.writeTransform text).result = BitVec.ofNat 32 (firstRow (s.suffixOrder text)) := rfl
@[simp] theorem State.writeTransform_olen (s : State) (text : List Byte) : (s.writeTransform text).olen = BitVec.ofNat 32 (bwtMessage text (s.suffixOrder text)).length := rfl
@[simp] theorem State.writeTransform_n (s : State) (text : List Byte) : (s.writeTransform text).n = BitVec.ofNat 32 text.length := rfl
@[simp] theorem State.writeTransform_cmdl (s : State) (text : List Byte) : (s.writeTransform text).cmdl = s.cmdl := rfl
@[simp] theorem State.writeTransform_argl (s : State) (text : List Byte) : (s.writeTransform text).argl = s.argl := rfl
@[simp] theorem State.writeTransform_avl (s : State) (text : List Byte) : (s.writeTransform text).avl = s.avl := rfl
@[simp] theorem State.writeTransform_ibuf (s : State) (text : List Byte) : (s.writeTransform text).ibuf = s.ibuf := rfl
@[simp] theorem State.writeTransform_obuf (s : State) (text : List Byte) : (s.writeTransform text).obuf = s.obuf.writePrefix (bwtMessage text (s.suffixOrder text)) := rfl
@[simp] theorem State.writeTransform_sa (s : State) (text : List Byte) : (s.writeTransform text).sa = Memory.block 0 ((s.suffixOrder text).map (BitVec.ofNat 32)) := rfl
@[simp] theorem State.writeTransform_next (s : State) (text : List Byte) : (s.writeTransform text).next = s.next := rfl
@[simp] theorem State.writeTransform_sorted (s : State) (text : List Byte) : (s.writeTransform text).sorted = s.sorted := rfl
@[simp] theorem State.writeTransform_count (s : State) (text : List Byte) : (s.writeTransform text).count = s.count := rfl
@[simp] theorem State.writeTransform_list (s : State) (text : List Byte) : (s.writeTransform text).list = s.list := rfl
@[simp] theorem State.writeTransform_stack (s : State) (text : List Byte) : (s.writeTransform text).stack = (runSort text s.stack s.cur).mem := rfl
@[simp] theorem State.writeTransform_sp (s : State) (text : List Byte) : (s.writeTransform text).sp = BitVec.ofNat 32 (runSort text s.stack s.cur).items.length := rfl
@[simp] theorem State.writeTransform_schedule (s : State) (text : List Byte) : (s.writeTransform text).schedule = s.schedule := rfl
@[simp] theorem State.writeTransform_replies (s : State) (text : List Byte) : (s.writeTransform text).replies = s.replies := rfl
@[simp] theorem State.writeTransform_drawn (s : State) (text : List Byte) : (s.writeTransform text).drawn = s.drawn := rfl

@[simp] theorem State.writeInverse_nmax (s : State) (first : Nat) (column : List Byte) : (s.writeInverse first column).nmax = s.nmax := rfl
@[simp] theorem State.writeInverse_tieBreak (s : State) (first : Nat) (column : List Byte) : (s.writeInverse first column).tieBreak = s.tieBreak := rfl
@[simp] theorem State.writeInverse_arg (s : State) (first : Nat) (column : List Byte) : (s.writeInverse first column).arg = s.arg := rfl
@[simp] theorem State.writeInverse_argv (s : State) (first : Nat) (column : List Byte) : (s.writeInverse first column).argv = s.argv := rfl
@[simp] theorem State.writeInverse_busy (s : State) (first : Nat) (column : List Byte) : (s.writeInverse first column).busy = s.busy := rfl
@[simp] theorem State.writeInverse_done (s : State) (first : Nat) (column : List Byte) : (s.writeInverse first column).done = s.done := rfl
@[simp] theorem State.writeInverse_err (s : State) (first : Nat) (column : List Byte) : (s.writeInverse first column).err = s.err := rfl
@[simp] theorem State.writeInverse_cause (s : State) (first : Nat) (column : List Byte) : (s.writeInverse first column).cause = s.cause := rfl
@[simp] theorem State.writeInverse_sav (s : State) (first : Nat) (column : List Byte) : (s.writeInverse first column).sav = s.sav := rfl
@[simp] theorem State.writeInverse_ovr (s : State) (first : Nat) (column : List Byte) : (s.writeInverse first column).ovr = s.ovr := rfl
@[simp] theorem State.writeInverse_result (s : State) (first : Nat) (column : List Byte) : (s.writeInverse first column).result = s.result := rfl
@[simp] theorem State.writeInverse_olen (s : State) (first : Nat) (column : List Byte) : (s.writeInverse first column).olen = BitVec.ofNat 32 (walk (inverseTables column) column.length first).1.length := rfl
@[simp] theorem State.writeInverse_n (s : State) (first : Nat) (column : List Byte) : (s.writeInverse first column).n = s.n := rfl
@[simp] theorem State.writeInverse_cmdl (s : State) (first : Nat) (column : List Byte) : (s.writeInverse first column).cmdl = s.cmdl := rfl
@[simp] theorem State.writeInverse_argl (s : State) (first : Nat) (column : List Byte) : (s.writeInverse first column).argl = s.argl := rfl
@[simp] theorem State.writeInverse_avl (s : State) (first : Nat) (column : List Byte) : (s.writeInverse first column).avl = s.avl := rfl
@[simp] theorem State.writeInverse_ibuf (s : State) (first : Nat) (column : List Byte) : (s.writeInverse first column).ibuf = s.ibuf := rfl
@[simp] theorem State.writeInverse_obuf (s : State) (first : Nat) (column : List Byte) : (s.writeInverse first column).obuf = s.obuf.writePrefix (walk (inverseTables column) column.length first).1 := rfl
@[simp] theorem State.writeInverse_sa (s : State) (first : Nat) (column : List Byte) : (s.writeInverse first column).sa = s.sa := rfl
@[simp] theorem State.writeInverse_next (s : State) (first : Nat) (column : List Byte) : (s.writeInverse first column).next = s.next.writePrefix ((inverseTables column).next.map (BitVec.ofNat 32)) := rfl
@[simp] theorem State.writeInverse_sorted (s : State) (first : Nat) (column : List Byte) : (s.writeInverse first column).sorted = s.sorted.writePrefix (inverseTables column).sorted := rfl
@[simp] theorem State.writeInverse_count (s : State) (first : Nat) (column : List Byte) : (s.writeInverse first column).count = s.count.writePrefix ((inverseTables column).count.map (BitVec.ofNat 32)) := rfl
@[simp] theorem State.writeInverse_list (s : State) (first : Nat) (column : List Byte) : (s.writeInverse first column).list = s.list := rfl
@[simp] theorem State.writeInverse_stack (s : State) (first : Nat) (column : List Byte) : (s.writeInverse first column).stack = s.stack := rfl
@[simp] theorem State.writeInverse_sp (s : State) (first : Nat) (column : List Byte) : (s.writeInverse first column).sp = s.sp := rfl
@[simp] theorem State.writeInverse_schedule (s : State) (first : Nat) (column : List Byte) : (s.writeInverse first column).schedule = s.schedule := rfl
@[simp] theorem State.writeInverse_replies (s : State) (first : Nat) (column : List Byte) : (s.writeInverse first column).replies = s.replies := rfl
@[simp] theorem State.writeInverse_drawn (s : State) (first : Nat) (column : List Byte) : (s.writeInverse first column).drawn = s.drawn := rfl

@[simp] theorem State.encodeOne_nmax (s : State) (c : Byte) : (s.encodeOne c).nmax = s.nmax := rfl
@[simp] theorem State.encodeOne_tieBreak (s : State) (c : Byte) : (s.encodeOne c).tieBreak = s.tieBreak := rfl
@[simp] theorem State.encodeOne_arg (s : State) (c : Byte) : (s.encodeOne c).arg = s.arg := rfl
@[simp] theorem State.encodeOne_argv (s : State) (c : Byte) : (s.encodeOne c).argv = s.argv := rfl
@[simp] theorem State.encodeOne_busy (s : State) (c : Byte) : (s.encodeOne c).busy = s.busy := rfl
@[simp] theorem State.encodeOne_done (s : State) (c : Byte) : (s.encodeOne c).done = s.done := rfl
@[simp] theorem State.encodeOne_err (s : State) (c : Byte) : (s.encodeOne c).err = s.err := rfl
@[simp] theorem State.encodeOne_cause (s : State) (c : Byte) : (s.encodeOne c).cause = s.cause := rfl
@[simp] theorem State.encodeOne_sav (s : State) (c : Byte) : (s.encodeOne c).sav = s.sav := rfl
@[simp] theorem State.encodeOne_ovr (s : State) (c : Byte) : (s.encodeOne c).ovr = s.ovr := rfl
@[simp] theorem State.encodeOne_result (s : State) (c : Byte) : (s.encodeOne c).result = BitVec.ofNat 32 (encStep c s.list).1 := rfl
@[simp] theorem State.encodeOne_olen (s : State) (c : Byte) : (s.encodeOne c).olen = s.olen := rfl
@[simp] theorem State.encodeOne_n (s : State) (c : Byte) : (s.encodeOne c).n = s.n := rfl
@[simp] theorem State.encodeOne_cmdl (s : State) (c : Byte) : (s.encodeOne c).cmdl = s.cmdl := rfl
@[simp] theorem State.encodeOne_argl (s : State) (c : Byte) : (s.encodeOne c).argl = s.argl := rfl
@[simp] theorem State.encodeOne_avl (s : State) (c : Byte) : (s.encodeOne c).avl = s.avl := rfl
@[simp] theorem State.encodeOne_ibuf (s : State) (c : Byte) : (s.encodeOne c).ibuf = s.ibuf := rfl
@[simp] theorem State.encodeOne_obuf (s : State) (c : Byte) : (s.encodeOne c).obuf = s.obuf := rfl
@[simp] theorem State.encodeOne_sa (s : State) (c : Byte) : (s.encodeOne c).sa = s.sa := rfl
@[simp] theorem State.encodeOne_next (s : State) (c : Byte) : (s.encodeOne c).next = s.next := rfl
@[simp] theorem State.encodeOne_sorted (s : State) (c : Byte) : (s.encodeOne c).sorted = s.sorted := rfl
@[simp] theorem State.encodeOne_count (s : State) (c : Byte) : (s.encodeOne c).count = s.count := rfl
@[simp] theorem State.encodeOne_list (s : State) (c : Byte) : (s.encodeOne c).list = (encStep c s.list).2 := rfl
@[simp] theorem State.encodeOne_stack (s : State) (c : Byte) : (s.encodeOne c).stack = s.stack := rfl
@[simp] theorem State.encodeOne_sp (s : State) (c : Byte) : (s.encodeOne c).sp = s.sp := rfl
@[simp] theorem State.encodeOne_schedule (s : State) (c : Byte) : (s.encodeOne c).schedule = s.schedule := rfl
@[simp] theorem State.encodeOne_replies (s : State) (c : Byte) : (s.encodeOne c).replies = s.replies := rfl
@[simp] theorem State.encodeOne_drawn (s : State) (c : Byte) : (s.encodeOne c).drawn = s.drawn := rfl

@[simp] theorem State.decodeOne_nmax (s : State) (k : Nat) : (s.decodeOne k).nmax = s.nmax := rfl
@[simp] theorem State.decodeOne_tieBreak (s : State) (k : Nat) : (s.decodeOne k).tieBreak = s.tieBreak := rfl
@[simp] theorem State.decodeOne_arg (s : State) (k : Nat) : (s.decodeOne k).arg = s.arg := rfl
@[simp] theorem State.decodeOne_argv (s : State) (k : Nat) : (s.decodeOne k).argv = s.argv := rfl
@[simp] theorem State.decodeOne_busy (s : State) (k : Nat) : (s.decodeOne k).busy = s.busy := rfl
@[simp] theorem State.decodeOne_done (s : State) (k : Nat) : (s.decodeOne k).done = s.done := rfl
@[simp] theorem State.decodeOne_err (s : State) (k : Nat) : (s.decodeOne k).err = s.err := rfl
@[simp] theorem State.decodeOne_cause (s : State) (k : Nat) : (s.decodeOne k).cause = s.cause := rfl
@[simp] theorem State.decodeOne_sav (s : State) (k : Nat) : (s.decodeOne k).sav = s.sav := rfl
@[simp] theorem State.decodeOne_ovr (s : State) (k : Nat) : (s.decodeOne k).ovr = s.ovr := rfl
@[simp] theorem State.decodeOne_result (s : State) (k : Nat) : (s.decodeOne k).result = (decStep k s.list).1.setWidth 32 := rfl
@[simp] theorem State.decodeOne_olen (s : State) (k : Nat) : (s.decodeOne k).olen = s.olen := rfl
@[simp] theorem State.decodeOne_n (s : State) (k : Nat) : (s.decodeOne k).n = s.n := rfl
@[simp] theorem State.decodeOne_cmdl (s : State) (k : Nat) : (s.decodeOne k).cmdl = s.cmdl := rfl
@[simp] theorem State.decodeOne_argl (s : State) (k : Nat) : (s.decodeOne k).argl = s.argl := rfl
@[simp] theorem State.decodeOne_avl (s : State) (k : Nat) : (s.decodeOne k).avl = s.avl := rfl
@[simp] theorem State.decodeOne_ibuf (s : State) (k : Nat) : (s.decodeOne k).ibuf = s.ibuf := rfl
@[simp] theorem State.decodeOne_obuf (s : State) (k : Nat) : (s.decodeOne k).obuf = s.obuf := rfl
@[simp] theorem State.decodeOne_sa (s : State) (k : Nat) : (s.decodeOne k).sa = s.sa := rfl
@[simp] theorem State.decodeOne_next (s : State) (k : Nat) : (s.decodeOne k).next = s.next := rfl
@[simp] theorem State.decodeOne_sorted (s : State) (k : Nat) : (s.decodeOne k).sorted = s.sorted := rfl
@[simp] theorem State.decodeOne_count (s : State) (k : Nat) : (s.decodeOne k).count = s.count := rfl
@[simp] theorem State.decodeOne_list (s : State) (k : Nat) : (s.decodeOne k).list = (decStep k s.list).2 := rfl
@[simp] theorem State.decodeOne_stack (s : State) (k : Nat) : (s.decodeOne k).stack = s.stack := rfl
@[simp] theorem State.decodeOne_sp (s : State) (k : Nat) : (s.decodeOne k).sp = s.sp := rfl
@[simp] theorem State.decodeOne_schedule (s : State) (k : Nat) : (s.decodeOne k).schedule = s.schedule := rfl
@[simp] theorem State.decodeOne_replies (s : State) (k : Nat) : (s.decodeOne k).replies = s.replies := rfl
@[simp] theorem State.decodeOne_drawn (s : State) (k : Nat) : (s.decodeOne k).drawn = s.drawn := rfl

@[simp] theorem State.encodeMessage_nmax (s : State) (input : List Byte) : (s.encodeMessage input).nmax = s.nmax := rfl
@[simp] theorem State.encodeMessage_tieBreak (s : State) (input : List Byte) : (s.encodeMessage input).tieBreak = s.tieBreak := rfl
@[simp] theorem State.encodeMessage_arg (s : State) (input : List Byte) : (s.encodeMessage input).arg = s.arg := rfl
@[simp] theorem State.encodeMessage_argv (s : State) (input : List Byte) : (s.encodeMessage input).argv = s.argv := rfl
@[simp] theorem State.encodeMessage_busy (s : State) (input : List Byte) : (s.encodeMessage input).busy = s.busy := rfl
@[simp] theorem State.encodeMessage_done (s : State) (input : List Byte) : (s.encodeMessage input).done = s.done := rfl
@[simp] theorem State.encodeMessage_err (s : State) (input : List Byte) : (s.encodeMessage input).err = s.err := rfl
@[simp] theorem State.encodeMessage_cause (s : State) (input : List Byte) : (s.encodeMessage input).cause = s.cause := rfl
@[simp] theorem State.encodeMessage_sav (s : State) (input : List Byte) : (s.encodeMessage input).sav = s.sav := rfl
@[simp] theorem State.encodeMessage_ovr (s : State) (input : List Byte) : (s.encodeMessage input).ovr = s.ovr := rfl
@[simp] theorem State.encodeMessage_result (s : State) (input : List Byte) : (s.encodeMessage input).result = s.result := rfl
@[simp] theorem State.encodeMessage_olen (s : State) (input : List Byte) : (s.encodeMessage input).olen = BitVec.ofNat 32 (encodeStream identityList input).1.length := rfl
@[simp] theorem State.encodeMessage_n (s : State) (input : List Byte) : (s.encodeMessage input).n = s.n := rfl
@[simp] theorem State.encodeMessage_cmdl (s : State) (input : List Byte) : (s.encodeMessage input).cmdl = s.cmdl := rfl
@[simp] theorem State.encodeMessage_argl (s : State) (input : List Byte) : (s.encodeMessage input).argl = s.argl := rfl
@[simp] theorem State.encodeMessage_avl (s : State) (input : List Byte) : (s.encodeMessage input).avl = s.avl := rfl
@[simp] theorem State.encodeMessage_ibuf (s : State) (input : List Byte) : (s.encodeMessage input).ibuf = s.ibuf := rfl
@[simp] theorem State.encodeMessage_obuf (s : State) (input : List Byte) : (s.encodeMessage input).obuf = s.obuf.writePrefix (encodeStream identityList input).1 := rfl
@[simp] theorem State.encodeMessage_sa (s : State) (input : List Byte) : (s.encodeMessage input).sa = s.sa := rfl
@[simp] theorem State.encodeMessage_next (s : State) (input : List Byte) : (s.encodeMessage input).next = s.next := rfl
@[simp] theorem State.encodeMessage_sorted (s : State) (input : List Byte) : (s.encodeMessage input).sorted = s.sorted := rfl
@[simp] theorem State.encodeMessage_count (s : State) (input : List Byte) : (s.encodeMessage input).count = s.count := rfl
@[simp] theorem State.encodeMessage_list (s : State) (input : List Byte) : (s.encodeMessage input).list = (encodeStream identityList input).2 := rfl
@[simp] theorem State.encodeMessage_stack (s : State) (input : List Byte) : (s.encodeMessage input).stack = s.stack := rfl
@[simp] theorem State.encodeMessage_sp (s : State) (input : List Byte) : (s.encodeMessage input).sp = s.sp := rfl
@[simp] theorem State.encodeMessage_cur (s : State) (input : List Byte) : (s.encodeMessage input).cur = s.cur.afterPass input (encodeStream identityList input).1 := rfl
@[simp] theorem State.encodeMessage_schedule (s : State) (input : List Byte) : (s.encodeMessage input).schedule = s.schedule := rfl
@[simp] theorem State.encodeMessage_replies (s : State) (input : List Byte) : (s.encodeMessage input).replies = s.replies := rfl
@[simp] theorem State.encodeMessage_drawn (s : State) (input : List Byte) : (s.encodeMessage input).drawn = s.drawn := rfl

@[simp] theorem State.decodeMessage_nmax (s : State) (input : List Byte) : (s.decodeMessage input).nmax = s.nmax := rfl
@[simp] theorem State.decodeMessage_tieBreak (s : State) (input : List Byte) : (s.decodeMessage input).tieBreak = s.tieBreak := rfl
@[simp] theorem State.decodeMessage_arg (s : State) (input : List Byte) : (s.decodeMessage input).arg = s.arg := rfl
@[simp] theorem State.decodeMessage_argv (s : State) (input : List Byte) : (s.decodeMessage input).argv = s.argv := rfl
@[simp] theorem State.decodeMessage_busy (s : State) (input : List Byte) : (s.decodeMessage input).busy = s.busy := rfl
@[simp] theorem State.decodeMessage_done (s : State) (input : List Byte) : (s.decodeMessage input).done = s.done := rfl
@[simp] theorem State.decodeMessage_err (s : State) (input : List Byte) : (s.decodeMessage input).err = s.err := rfl
@[simp] theorem State.decodeMessage_cause (s : State) (input : List Byte) : (s.decodeMessage input).cause = s.cause := rfl
@[simp] theorem State.decodeMessage_sav (s : State) (input : List Byte) : (s.decodeMessage input).sav = s.sav := rfl
@[simp] theorem State.decodeMessage_ovr (s : State) (input : List Byte) : (s.decodeMessage input).ovr = s.ovr := rfl
@[simp] theorem State.decodeMessage_result (s : State) (input : List Byte) : (s.decodeMessage input).result = s.result := rfl
@[simp] theorem State.decodeMessage_olen (s : State) (input : List Byte) : (s.decodeMessage input).olen = BitVec.ofNat 32 (decodeStream identityList input).1.length := rfl
@[simp] theorem State.decodeMessage_n (s : State) (input : List Byte) : (s.decodeMessage input).n = s.n := rfl
@[simp] theorem State.decodeMessage_cmdl (s : State) (input : List Byte) : (s.decodeMessage input).cmdl = s.cmdl := rfl
@[simp] theorem State.decodeMessage_argl (s : State) (input : List Byte) : (s.decodeMessage input).argl = s.argl := rfl
@[simp] theorem State.decodeMessage_avl (s : State) (input : List Byte) : (s.decodeMessage input).avl = s.avl := rfl
@[simp] theorem State.decodeMessage_ibuf (s : State) (input : List Byte) : (s.decodeMessage input).ibuf = s.ibuf := rfl
@[simp] theorem State.decodeMessage_obuf (s : State) (input : List Byte) : (s.decodeMessage input).obuf = s.obuf.writePrefix (decodeStream identityList input).1 := rfl
@[simp] theorem State.decodeMessage_sa (s : State) (input : List Byte) : (s.decodeMessage input).sa = s.sa := rfl
@[simp] theorem State.decodeMessage_next (s : State) (input : List Byte) : (s.decodeMessage input).next = s.next := rfl
@[simp] theorem State.decodeMessage_sorted (s : State) (input : List Byte) : (s.decodeMessage input).sorted = s.sorted := rfl
@[simp] theorem State.decodeMessage_count (s : State) (input : List Byte) : (s.decodeMessage input).count = s.count := rfl
@[simp] theorem State.decodeMessage_list (s : State) (input : List Byte) : (s.decodeMessage input).list = (decodeStream identityList input).2 := rfl
@[simp] theorem State.decodeMessage_stack (s : State) (input : List Byte) : (s.decodeMessage input).stack = s.stack := rfl
@[simp] theorem State.decodeMessage_sp (s : State) (input : List Byte) : (s.decodeMessage input).sp = s.sp := rfl
@[simp] theorem State.decodeMessage_cur (s : State) (input : List Byte) : (s.decodeMessage input).cur = s.cur.afterPass (decodeStream identityList input).1 input := rfl
@[simp] theorem State.decodeMessage_schedule (s : State) (input : List Byte) : (s.decodeMessage input).schedule = s.schedule := rfl
@[simp] theorem State.decodeMessage_replies (s : State) (input : List Byte) : (s.decodeMessage input).replies = s.replies := rfl
@[simp] theorem State.decodeMessage_drawn (s : State) (input : List Byte) : (s.decodeMessage input).drawn = s.drawn := rfl

end Sys2Proof.Machine
end

