-- ==== Sys2Proof/Laws/Ops.lean ====
section
/-! SUPPORT. One lemma per shared operation: all it can do, said once. -/

namespace Sys2Proof.Machine

/-! ### Checks and messages -/

/-- A checked command fails with the first cause, or goes on. -/
theorem State.checked_eq (s : State) (checks : List (Bool × Cause)) (k : State → Host.Outcome State Fault Refusal) :
    s.checked checks k = if firstFailure checks = .none then k s else .next (s.fail (firstFailure checks)) := by
  unfold State.checked
  cases firstFailure checks <;> rfl

/-- If a checked command answers next t, it failed with the first cause or its body answered next t. -/
theorem State.checked_next {s t : State} {checks : List (Bool × Cause)} {k : State → Host.Outcome State Fault Refusal}
    (h : s.checked checks k = .next t) :
    (firstFailure checks ≠ .none ∧ t = s.fail (firstFailure checks)) ∨ (firstFailure checks = .none ∧ k s = .next t) := by
  rw [State.checked_eq] at h
  split_ifs at h with hc
  · exact .inr ⟨hc, h⟩
  · cases h; exact .inl ⟨hc, rfl⟩

/-- A command that reads its message goes on with the bytes, or the machine stops. -/
theorem State.withInput_next {s t : State} {base n : Nat} {k : List Byte → Host.Outcome State Fault Refusal}
    (h : s.withInput base n k = .next t) : ∃ bytes, s.ibuf.readBlock base n = some bytes ∧ k bytes = .next t := by
  unfold State.withInput at h
  split at h
  · next bytes hb => exact ⟨bytes, hb, h⟩
  · cases h

theorem State.withInput_some {s : State} {base n : Nat} {bytes : List Byte}
    {k : List Byte → Host.Outcome State Fault Refusal} (h : s.ibuf.readBlock base n = some bytes) :
    s.withInput base n k = k bytes := by
  unfold State.withInput; rw [h]

theorem State.withInput_none {s : State} {base n : Nat} {k : List Byte → Host.Outcome State Fault Refusal}
    (h : s.ibuf.readBlock base n = none) : s.withInput base n k = .fault .unwrittenInput := by
  unfold State.withInput; rw [h]

/-- The checks of the text commands pass exactly on a supplied operand in [1, NMAX]. -/
theorem State.textChecks_pass (s : State) :
    firstFailure s.textChecks = .none ↔ s.avl = true ∧ s.operand ≠ 0 ∧ s.operand ≤ s.nmax.toNat := by
  unfold State.textChecks firstFailure firstFailure firstFailure firstFailure
  cases s.avl <;> by_cases h0 : s.operand = 0 <;> by_cases h1 : s.nmax.toNat < s.operand <;> simp_all

/-- The check of CSS.LENGTH passes exactly when a suffix array exists. -/
theorem State.lengthChecks_pass (s : State) : firstFailure s.lengthChecks = .none ↔ s.sav = true := by
  unfold State.lengthChecks firstFailure firstFailure
  cases s.sav <;> simp

/-- The checks of CSS.INDEXAT pass exactly on a supplied row below N of an existing suffix array. -/
theorem State.indexChecks_pass (s : State) :
    firstFailure s.indexChecks = .none ↔ s.avl = true ∧ s.sav = true ∧ s.operand < s.n.toNat := by
  unfold State.indexChecks firstFailure firstFailure firstFailure firstFailure
  cases s.avl <;> cases s.sav <;> by_cases h1 : s.n.toNat ≤ s.operand <;> simp_all

/-- The checks of MTF.ENC1 pass exactly on a supplied byte. -/
theorem State.symbolChecks_pass (s : State) : firstFailure s.symbolChecks = .none ↔ s.avl = true ∧ s.operand < 256 := by
  unfold State.symbolChecks firstFailure firstFailure firstFailure
  cases s.avl <;> by_cases h1 : 256 ≤ s.operand <;> simp_all

/-- The checks of MTF.DEC1 pass exactly on a supplied byte. -/
theorem State.positionChecks_pass (s : State) :
    firstFailure s.positionChecks = .none ↔ s.avl = true ∧ s.operand < 256 := by
  unfold State.positionChecks firstFailure firstFailure firstFailure
  cases s.avl <;> by_cases h1 : 256 ≤ s.operand <;> simp_all

/-- The checks of the MTF passes pass exactly on a supplied length of at most BCAP. -/
theorem State.streamChecks_pass (s : State) :
    firstFailure s.streamChecks = .none ↔ s.avl = true ∧ s.operand ≤ s.bcap := by
  unfold State.streamChecks firstFailure firstFailure firstFailure
  cases s.avl <;> by_cases h1 : s.bcap < s.operand <;> simp_all

/-! ### The recency list -/

theorem length_moveToFront {p : Nat} (c : Byte) {list : List Byte} (h : p < list.length) :
    (moveToFront p c list).length = list.length := by
  simp only [moveToFront, List.length_cons, List.length_append, List.length_take, List.length_drop]
  omega

/-- What stands at each place after a move to the front. -/
theorem getElem?_moveToFront (p : Nat) (c : Byte) {list : List Byte} (h : p < list.length) (j : Nat) :
    (moveToFront p c list)[j]? = if j = 0 then some c else if j ≤ p then list[j - 1]? else list[j]? := by
  unfold moveToFront
  rcases j with _ | j
  · simp
  · simp only [List.getElem?_cons_succ, Nat.add_one_sub_one, Nat.add_one_ne_zero, if_false]
    by_cases hj : j + 1 ≤ p
    · rw [if_pos hj, List.getElem?_append_left (by simp; omega), List.getElem?_take]
      simp; omega
    · rw [if_neg hj, List.getElem?_append_right (by simp; omega), List.getElem?_drop]
      congr 1
      simp; omega

/-- The move to the front of the entry at p neither drops nor repeats a value. -/
theorem moveToFront_perm {p : Nat} {c : Byte} {list : List Byte} (h : list[p]? = some c) :
    (moveToFront p c list).Perm list := by
  obtain ⟨hp, hc⟩ := List.getElem?_eq_some_iff.1 h
  have : list = list.take p ++ c :: list.drop (p + 1) := by
    rw [← hc, List.cons_getElem_drop_succ, List.take_append_drop]
  conv_rhs => rw [this]
  exact List.perm_middle.symm

/-- The encode pass writes one index a symbol. -/
theorem length_encodeStream (list input : List Byte) : (encodeStream list input).1.length = input.length := by
  induction input generalizing list with
  | nil => rfl
  | cons c rest ih => simp [encodeStream, ih]

/-- The decode pass writes one symbol an index. -/
theorem length_decodeStream (list input : List Byte) : (decodeStream list input).1.length = input.length := by
  induction input generalizing list with
  | nil => rfl
  | cons c rest ih => simp [decodeStream, ih]

/-! ### The inverse -/

/-- The walk emits n symbols. -/
theorem length_walk (t : Tables) (n row : Nat) : (walk t n row).1.length = n := by
  induction n generalizing row with
  | zero => rfl
  | succ n ih => simp [walk, ih]

theorem length_runningSum (acc : Nat) (count : List Nat) : (runningSum acc count).length = count.length := by
  induction count generalizing acc with
  | nil => rfl
  | cons x rest ih => simp [runningSum, ih]

theorem length_countPhase (column : List Byte) : (countPhase column).length = Config.radix + 1 := by
  have key : ∀ (l : List Byte) (acc : List Nat),
      (l.foldl (fun count c => count.modify (c.toNat + 1) (· + 1)) acc).length = acc.length := by
    intro l
    induction l with
    | nil => intro acc; rfl
    | cons c l ih => intro acc; rw [List.foldl_cons, ih]; simp
  rw [countPhase, key]; simp

/-- The scatter keeps the lengths of the three tables. -/
theorem length_scatterFrom (t : Tables) (i : Nat) (column : List Byte) :
    (scatterFrom t i column).count.length = t.count.length ∧ (scatterFrom t i column).next.length = t.next.length ∧
      (scatterFrom t i column).sorted.length = t.sorted.length := by
  induction column generalizing t i with
  | nil => exact ⟨rfl, rfl, rfl⟩
  | cons c rest ih =>
    obtain ⟨h1, h2, h3⟩ := ih (scatterStep t i c) (i + 1)
    exact ⟨h1.trans (by simp [scatterStep]), h2.trans (by simp [scatterStep]), h3.trans (by simp [scatterStep])⟩

theorem length_inverseTables (column : List Byte) :
    (inverseTables column).count.length = Config.radix + 1 ∧ (inverseTables column).next.length = column.length ∧
      (inverseTables column).sorted.length = column.length := by
  have h := length_scatterFrom { count := prefixSumPhase (countPhase column), next := List.replicate column.length 0,
                                 sorted := List.replicate column.length 0 } 0 column
  simpa [inverseTables, prefixSumPhase, length_runningSum, length_countPhase] using h

/-! ### The sorter -/

theorem SortRun.pushPart_sa (r : SortRun) (ok : Bool) (w : WorkItem) : (r.pushPart ok w).sa = r.sa := by
  unfold SortRun.pushPart; split_ifs <;> rfl

theorem SortRun.pushLesser_sa (r : SortRun) (w : WorkItem) (lt : Nat) : (r.pushLesser w lt).sa = r.sa :=
  SortRun.pushPart_sa r _ _

theorem length_swapEntries (sa : List Nat) (a b : Nat) : (swapEntries sa a b).length = sa.length := by simp [swapEntries]

theorem length_scan (text : List Byte) (d : Nat) (v : Int) (fuel : Nat) (c : Scan) :
    (scan text d v fuel c).sa.length = c.sa.length := by
  induction fuel generalizing c with
  | zero => rfl
  | succ fuel ih =>
    unfold scan
    split_ifs
    · rw [ih]; unfold scanStep; split_ifs <;> simp [length_swapEntries]
    · rfl

theorem length_sortRound (text : List Byte) (r : SortRun) : (sortRound text r).sa.length = r.sa.length := by
  unfold sortRound
  split
  · rfl
  · simp only [SortRun.pushLesser_sa, SortRun.pushPart_sa]
    exact length_scan ..

theorem length_sortRounds (text : List Byte) (fuel : Nat) (r : SortRun) :
    (sortRounds text fuel r).sa.length = r.sa.length := by
  induction fuel generalizing r with
  | zero => rfl
  | succ fuel ih =>
    unfold sortRounds
    split
    · rfl
    · rw [ih, length_sortRound]

/-- The reference sort gives one offset a row. -/
theorem length_refSort (text : List Byte) : (refSort text).length = text.length := by
  rw [refSort, runSort, length_sortRounds, sortStart, SortRun.pushPart_sa]; simp

/-- What the table of TIEBREAK can give: an order in Sorted(text), or RefSort's (41_css.md R123). -/
theorem chooseOrder_cases (table : List (List Byte × List Nat)) (text : List Byte) (byRefSort : List Nat) :
    Sorted text (chooseOrder table text byRefSort) ∨ chooseOrder table text byRefSort = byRefSort := by
  unfold chooseOrder
  split
  · split_ifs with h
    · exact .inl h
    · exact .inr rfl
  · exact .inr rfl

/-- TIEBREAK gives one offset a row. -/
theorem length_suffixOrder (s : State) (text : List Byte) : (s.suffixOrder text).length = text.length := by
  rcases chooseOrder_cases s.tieBreak text (refSort text) with h | h
  · exact h.1.length_eq.trans List.length_range
  · rw [State.suffixOrder, h, length_refSort]

/-- Two sorts in progress with the same SA and the same work items. -/
def SortRun.SameWork (r q : SortRun) : Prop := r.sa = q.sa ∧ r.items = q.items

theorem SortRun.SameWork.pushPart {r q : SortRun} (h : r.SameWork q) (ok : Bool) (w : WorkItem) :
    (r.pushPart ok w).SameWork (q.pushPart ok w) := by
  unfold SortRun.pushPart
  split_ifs
  · exact ⟨h.1, by simp [SortRun.push, h.2]⟩
  · exact h

theorem SortRun.SameWork.sortRound {r q : SortRun} (text : List Byte) (h : r.SameWork q) :
    (sortRound text r).SameWork (sortRound text q) := by
  unfold Machine.sortRound
  rw [← h.2, ← h.1]
  cases r.items with
  | nil => exact h
  | cons w rest =>
    simp only [SortRun.pushLesser]
    refine SameWork.pushPart (SameWork.pushPart (SameWork.pushPart ?_ _ _) _ _) _ _
    exact ⟨rfl, rfl⟩

theorem SortRun.SameWork.sortRounds {r q : SortRun} (text : List Byte) (fuel : Nat) (h : r.SameWork q) :
    (sortRounds text fuel r).SameWork (sortRounds text fuel q) := by
  induction fuel generalizing r q with
  | zero => exact h
  | succ fuel ih =>
    unfold Machine.sortRounds
    rw [← h.2]
    cases r.items with
    | nil => exact h
    | cons w rest => exact ih (h.sortRound text)

/-- The STACK contents and cursors a sort starts from change neither its SA nor its work items. -/
theorem runSort_sameWork (text : List Byte) (mem : Memory StackEntry) (cur : Cursors) :
    (runSort text mem cur).SameWork (runSort text [] Cursors.reset) := by
  unfold runSort sortStart
  refine SortRun.SameWork.sortRounds text _ (SortRun.SameWork.pushPart ?_ _ _)
  exact ⟨rfl, rfl⟩

theorem runSort_sa (text : List Byte) (mem : Memory StackEntry) (cur : Cursors) :
    (runSort text mem cur).sa = refSort text := (runSort_sameWork text mem cur).1

end Sys2Proof.Machine
end

