-- ==== Sys2Proof/Laws/Exec.lean ====
section
/-! SUPPORT. One inversion lemma per meaning, and one for the step: if it answers next t, then one of these cases holds. -/

namespace Sys2Proof.Machine

/-- A completion that failed: the state with only the report changed. -/
def FailedAs (s t : State) : Prop := ∃ c : Cause, c ≠ .none ∧ t = s.fail c

theorem failedAs_of_checks {s : State} {checks : List (Bool × Cause)} (h : firstFailure checks ≠ .none) :
    FailedAs s (s.fail (firstFailure checks)) := ⟨_, h, rfl⟩

theorem execCssBuild_next {s t : State} (h : execCssBuild s = .next t) :
    FailedAs s t ∨ ∃ text, s.avl = true ∧ s.operand ≠ 0 ∧ s.operand ≤ s.nmax.toNat ∧
      s.ibuf.readBlock 0 s.operand = some text ∧ t = (s.buildSuffixArray text).succeed := by
  rcases State.checked_next h with ⟨hc, rfl⟩ | ⟨hc, h⟩
  · exact .inl (failedAs_of_checks hc)
  · obtain ⟨h1, h2, h3⟩ := s.textChecks_pass.1 hc
    obtain ⟨text, ht, h⟩ := State.withInput_next h
    cases h; exact .inr ⟨text, h1, h2, h3, ht, rfl⟩

theorem execCssLength_next {s t : State} (h : execCssLength s = .next t) :
    FailedAs s t ∨ (s.sav = true ∧ t = ({ s with result := s.n } : State).succeed) := by
  rcases State.checked_next h with ⟨hc, rfl⟩ | ⟨hc, h⟩
  · exact .inl (failedAs_of_checks hc)
  · cases h; exact .inr ⟨s.lengthChecks_pass.1 hc, rfl⟩

theorem execCssIndexat_next {s t : State} (h : execCssIndexat s = .next t) :
    FailedAs s t ∨ (s.avl = true ∧ s.sav = true ∧ s.operand < s.n.toNat ∧ t = (s.resultFromSa s.operand).succeed) := by
  rcases State.checked_next h with ⟨hc, rfl⟩ | ⟨hc, h⟩
  · exact .inl (failedAs_of_checks hc)
  · obtain ⟨h1, h2, h3⟩ := s.indexChecks_pass.1 hc
    cases h; exact .inr ⟨h1, h2, h3, rfl⟩

theorem execBwtTransform_next {s t : State} (h : execBwtTransform s = .next t) :
    FailedAs s t ∨ ∃ text, s.avl = true ∧ s.operand ≠ 0 ∧ s.operand ≤ s.nmax.toNat ∧
      s.ibuf.readBlock 0 s.operand = some text ∧ t = (s.writeTransform text).succeed := by
  rcases State.checked_next h with ⟨hc, rfl⟩ | ⟨hc, h⟩
  · exact .inl (failedAs_of_checks hc)
  · obtain ⟨h1, h2, h3⟩ := s.textChecks_pass.1 hc
    obtain ⟨text, ht, h⟩ := State.withInput_next h
    cases h; exact .inr ⟨text, h1, h2, h3, ht, rfl⟩

theorem execBwtInverse_next {s t : State} (h : execBwtInverse s = .next t) :
    FailedAs s t ∨ ∃ head column, s.avl = true ∧ s.operand ≠ 0 ∧ s.operand ≤ s.nmax.toNat ∧
      s.ibuf.readBlock 0 4 = some head ∧ be32 head < s.operand ∧ s.ibuf.readBlock 4 s.operand = some column ∧
      t = (s.writeInverse (be32 head) column).succeed := by
  rcases State.checked_next h with ⟨hc, rfl⟩ | ⟨hc, h⟩
  · exact .inl (failedAs_of_checks hc)
  · obtain ⟨h1, h2, h3⟩ := s.textChecks_pass.1 hc
    obtain ⟨head, hh, h⟩ := State.withInput_next h
    rcases State.checked_next h with ⟨hc, rfl⟩ | ⟨hc, h⟩
    · exact .inl (failedAs_of_checks hc)
    · obtain ⟨column, hcol, h⟩ := State.withInput_next h
      have hf : be32 head < s.operand := by
        by_contra hn
        simp [firstFailure, Nat.not_lt.1 hn] at hc
      cases h; exact .inr ⟨head, column, h1, h2, h3, hh, hf, hcol, rfl⟩

theorem execMtfEnc1_next {s t : State} (h : execMtfEnc1 s = .next t) :
    FailedAs s t ∨ (s.avl = true ∧ s.operand < 256 ∧ t = (s.encodeOne (BitVec.ofNat 8 s.operand)).succeed) := by
  rcases State.checked_next h with ⟨hc, rfl⟩ | ⟨hc, h⟩
  · exact .inl (failedAs_of_checks hc)
  · obtain ⟨h1, h2⟩ := s.symbolChecks_pass.1 hc
    cases h; exact .inr ⟨h1, h2, rfl⟩

theorem execMtfDec1_next {s t : State} (h : execMtfDec1 s = .next t) :
    FailedAs s t ∨ (s.avl = true ∧ s.operand < 256 ∧ t = (s.decodeOne s.operand).succeed) := by
  rcases State.checked_next h with ⟨hc, rfl⟩ | ⟨hc, h⟩
  · exact .inl (failedAs_of_checks hc)
  · obtain ⟨h1, h2⟩ := s.positionChecks_pass.1 hc
    cases h; exact .inr ⟨h1, h2, rfl⟩

theorem execMtfEncode_next {s t : State} (h : execMtfEncode s = .next t) :
    FailedAs s t ∨ ∃ input, s.avl = true ∧ s.operand ≤ s.bcap ∧ s.ibuf.readBlock 0 s.operand = some input ∧
      t = (s.encodeMessage input).succeed := by
  rcases State.checked_next h with ⟨hc, rfl⟩ | ⟨hc, h⟩
  · exact .inl (failedAs_of_checks hc)
  · obtain ⟨h1, h2⟩ := s.streamChecks_pass.1 hc
    obtain ⟨input, hi, h⟩ := State.withInput_next h
    cases h; exact .inr ⟨input, h1, h2, hi, rfl⟩

theorem execMtfDecode_next {s t : State} (h : execMtfDecode s = .next t) :
    FailedAs s t ∨ ∃ input, s.avl = true ∧ s.operand ≤ s.bcap ∧ s.ibuf.readBlock 0 s.operand = some input ∧
      t = (s.decodeMessage input).succeed := by
  rcases State.checked_next h with ⟨hc, rfl⟩ | ⟨hc, h⟩
  · exact .inl (failedAs_of_checks hc)
  · obtain ⟨h1, h2⟩ := s.streamChecks_pass.1 hc
    obtain ⟨input, hi, h⟩ := State.withInput_next h
    cases h; exact .inr ⟨input, h1, h2, hi, rfl⟩

/-- If a completion answers next t, the word is illegal and only the report changed, or the word is a command and its
meaning answered next t. -/
theorem complete_next {s t : State} (h : complete s = .next t) :
    (∃ i, decode s.cmdl = .instr i ∧ exec i s = .next t) ∨ ((∀ i, decode s.cmdl ≠ .instr i) ∧ t = s.fail .illegal) := by
  unfold complete at h
  split at h
  · next i hi => exact .inl ⟨i, hi, h⟩
  · next why hw => cases h; exact .inr ⟨fun i hi => (by rw [hw] at hi; cases hi), rfl⟩

/-- If a move of the host answers next t, its index lies in its space. -/
theorem hostMove_next {m : HostMove} {s t : State} (h : hostMove m s = .next t) : m.wf s.bcap = true ∧ t = s.perform m := by
  unfold hostMove at h
  split_ifs at h with hw
  cases h; exact ⟨hw, rfl⟩

/-- Everything a step can do. -/
theorem step_next {s t : State} (h : step s = .next t) :
    (s.schedule = [] ∧ sequencerTurn s = .next t) ∨
    (∃ rest, s.schedule = .sequencer :: rest ∧ sequencerTurn { s with schedule := rest } = .next t) ∨
    (∃ rest, s.schedule = .hardReset :: rest ∧ t = ({ s with schedule := rest } : State).hardReset) ∨
    (∃ m rest, s.schedule = .host m :: rest ∧ m.wf s.bcap = true ∧ t = ({ s with schedule := rest } : State).perform m) := by
  unfold step at h
  split at h
  · next hs => exact .inl ⟨hs, h⟩
  · next rest hs => exact .inr (.inl ⟨rest, hs, h⟩)
  · next rest hs => cases h; exact .inr (.inr (.inl ⟨rest, hs, rfl⟩))
  · next m rest hs =>
    obtain ⟨hw, rfl⟩ := hostMove_next h
    exact .inr (.inr (.inr ⟨m, rest, hs, hw, rfl⟩))

/-- Everything a sequencer's turn can do. -/
theorem sequencerTurn_next {s t : State} (h : sequencerTurn s = .next t) :
    (s.busy = true ∧ complete s = .next t) ∨ (s.busy = false ∧ t = s) := by
  unfold sequencerTurn at h
  split_ifs at h with hb
  · exact .inl ⟨hb, h⟩
  · cases h; exact .inr ⟨Bool.eq_false_iff.2 hb, rfl⟩

end Sys2Proof.Machine
end

