-- ==== Sys2Proof/Laws/PerInstr.lean ====
section
/-! SUPPORT. The family WordFormat: the word of every command is of format C (30_encoding.md R90). -/

namespace Sys2Proof.Laws.WordFormat

/-- The command's word is well formed: bits 31:8, the field ZERO, are 0. -/
def Statement (i : Instr) : Prop := wellFormedWord (encode i) = true ∧ zeroField (encode i) = 0

theorem ctlNop : Statement .ctlNop := ⟨by decide, by decide⟩
theorem ctlReset : Statement .ctlReset := ⟨by decide, by decide⟩
theorem cssBuild : Statement .cssBuild := ⟨by decide, by decide⟩
theorem cssLength : Statement .cssLength := ⟨by decide, by decide⟩
theorem cssIndexat : Statement .cssIndexat := ⟨by decide, by decide⟩
theorem bwtTransform : Statement .bwtTransform := ⟨by decide, by decide⟩
theorem bwtInverse : Statement .bwtInverse := ⟨by decide, by decide⟩
theorem mtfInit : Statement .mtfInit := ⟨by decide, by decide⟩
theorem mtfEnc1 : Statement .mtfEnc1 := ⟨by decide, by decide⟩
theorem mtfDec1 : Statement .mtfDec1 := ⟨by decide, by decide⟩
theorem mtfEncode : Statement .mtfEncode := ⟨by decide, by decide⟩
theorem mtfDecode : Statement .mtfDecode := ⟨by decide, by decide⟩

end Sys2Proof.Laws.WordFormat
end

