-- ==== Sys2Proof/Machine/BusMap.lean ====
section
/-! DEFINITION. BUSMAP, the open placement of the registers and buffers on a bus (20_memory.md R68). No rule of the
block depends on it, and `step` does not use it. -/

namespace Sys2Proof.Machine

/-- What lies at a bus address. -/
inductive BusTarget where
  | reg (k : Nat)
  | ibuf (j : Nat)
  | obuf (j : Nat)
  deriving DecidableEq, Repr

/-- A placement: what lies at each address, if anything does. Any function is one, since BUSMAP is wholly open
(20_memory.md R68). DESIGN CHOICE (log 14), safe: an address names at most one whole register or one buffer byte; byte
lanes, the cutting up of wider accesses and the order of accesses on the way (20_memory.md R64, R65, R74) are the platform's. -/
structure BusMap where
  locate : Nat → Option BusTarget

/-- The placement with register k at 4·k and the buffers contiguous from their bases. Any other address, a misaligned
one among them, is no access of the block (20_memory.md R65). DESIGN CHOICE (log 14): where the ranges overlap, the
registers come first, then IBUF. -/
def contiguousBusMap (ibufBase obufBase bcap : Nat) : BusMap where
  locate a :=
    if a < 32 ∧ a % 4 = 0 then some (.reg (a / 4))
    else if ibufBase ≤ a ∧ a < ibufBase + bcap then some (.ibuf (a - ibufBase))
    else if obufBase ≤ a ∧ a < obufBase + bcap then some (.obuf (a - obufBase))
    else none

/-- The default map (20_memory.md R68), addresses counted from the block's base: register k at 4·k, IBUF at 2^32, OBUF
at 2^33. It has no overlap, since BCAP is below 2^32. -/
def defaultBusMap (bcap : Nat) : BusMap := contiguousBusMap (2 ^ 32) (2 ^ 33) bcap

end Sys2Proof.Machine
end

