-- ==== Sys2Proof/Tests/Slice0.lean ====
section
/-! SUPPORT. Tests against the spec's own words and vectors (95_test_vectors.md, the example of each rule), the smoke test of
WellFormed, and one witness for the hypotheses of each statement. -/

namespace Sys2Proof.Tests

open Sys2Proof.Machine

/-! ### Helpers -/

/-- The next state, if the outcome is one. -/
def nextOf (o : Host.Outcome State Fault Refusal) : Option State :=
  match o with
  | .next s => some s
  | _ => none

/-- A busy state after reset, with the word and the operand latched and `bytes` written from IBUF[0] upward. -/
def issuedState (cmd operand : Word) (bytes : List Byte) : State :=
  { State.reset with ibuf := Memory.block 0 bytes, arg := operand, argl := operand, avl := true, cmdl := cmd, busy := true }

/-- "ABRACADABRA!" -/
def abra : List Byte := [0x41, 0x42, 0x52, 0x41, 0x43, 0x41, 0x44, 0x41, 0x42, 0x52, 0x41, 0x21]

/-- "ABAB" -/
def abab : List Byte := [0x41, 0x42, 0x41, 0x42]

/-- "BA" -/
def ba : List Byte := [0x42, 0x41]

/-- The state after `CSS.BUILD 2` on "BA", with a row number latched. -/
def builtState (row : Word) : State :=
  { State.reset with sa := [(0, 1), (1, 0)], n := 2, sav := true, argl := row, avl := true, done := true }

/-! ### WellFormed refuses what is ill formed -/

theorem test_word_with_bit_8_is_ill_formed : wellFormedWord 0x110 = false ∧ wellFormedWord 0x34 = true := by decide

theorem test_register_8_is_ill_formed :
    HostMove.wf 68 (.regRead 8) = false ∧ HostMove.wf 68 (.regWrite 8 0) = false ∧ HostMove.wf 68 (.regRead 7) = true := by decide

theorem test_buffer_index_bcap_is_ill_formed :
    HostMove.wf 68 (.ibufWrite 68 0) = false ∧ HostMove.wf 68 (.ibufRead 68) = false ∧ HostMove.wf 68 (.obufRead 68) = false ∧
      HostMove.wf 68 (.ibufWrite 67 0) = true := by decide

theorem test_nmax_bounds :
    legalNmax 0 = false ∧ legalNmax 1 = true ∧ legalNmax 0x7FFFFFFB = true ∧ legalNmax 0x7FFFFFFC = false := by decide

/-- V13: 2 0 3 1 is in Sorted("ABAB"), 1 0 2 3 is not. -/
theorem test_tie_break_table :
    legalTieBreak [(abab, [2, 0, 3, 1])] = true ∧ legalTieBreak [(abab, [1, 0, 2, 3])] = false := by decide +kernel

/-! ### Decoding, by words written out from 30_encoding.md R90 and R92: ZERO, UNIT, FN -/

theorem test_decode_ctl :
    decode 0b000000000000000000000000_0000_0000 = .instr .ctlNop ∧
      decode 0b000000000000000000000000_0000_0001 = .instr .ctlReset := by decide

theorem test_decode_css :
    decode 0b000000000000000000000000_0001_0000 = .instr .cssBuild ∧
      decode 0b000000000000000000000000_0001_0001 = .instr .cssLength ∧
      decode 0b000000000000000000000000_0001_0010 = .instr .cssIndexat := by decide

theorem test_decode_bwt :
    decode 0b000000000000000000000000_0010_0000 = .instr .bwtTransform ∧
      decode 0b000000000000000000000000_0010_0001 = .instr .bwtInverse := by decide

theorem test_decode_mtf :
    decode 0b000000000000000000000000_0011_0000 = .instr .mtfInit ∧
      decode 0b000000000000000000000000_0011_0001 = .instr .mtfEnc1 ∧
      decode 0b000000000000000000000000_0011_0010 = .instr .mtfDec1 ∧
      decode 0b000000000000000000000000_0011_0011 = .instr .mtfEncode ∧
      decode 0b000000000000000000000000_0011_0100 = .instr .mtfDecode := by decide

/-- V2, with the reason of each. -/
theorem test_decode_illegal :
    decode 0x00000110 = .illegal .zeroField ∧ decode 0x80000000 = .illegal .zeroField ∧
      decode 0x00000040 = .illegal .unassignedUnit ∧ decode 0x00000013 = .illegal .unassignedFunction := by decide

theorem test_decodeTableWord : decodeTableWord 32 0x21 = some .bwtInverse ∧ decodeTableWord 32 0x22 = none := by decide

/-! ### One step of each command -/

/-- V4: STATUS 0x00000416, CTL.NOP, STATUS 0x00000012. -/
theorem test_nop_clears_the_report :
    ({ builtState 12 with err := true, cause := .index } : State).status = 0x416 ∧
      (nextOf (step (({ builtState 12 with err := true, cause := .index } : State).withFetchWord 32 0))).map State.status
        = some 0x12 := by decide

/-- V5: STATUS 0x00000032, CTL.RESET, STATUS 0x00000002. -/
theorem test_reset_leaves_done :
    ({ builtState 0 with ovr := true } : State).status = 0x32 ∧
      (nextOf (step (({ builtState 0 with ovr := true } : State).withFetchWord 32 1))).map
        (fun t => (t.status, t.n, t.list == identityList)) = some (0x2, 0, true) := by decide +kernel

/-- V7 -/
theorem test_build_abracadabra :
    (nextOf (exec .cssBuild (issuedState 0x10 12 abra))).map (fun t => (t.sa.map (·.2), t.n, t.status))
      = some ([11, 10, 7, 0, 3, 5, 8, 1, 4, 6, 9, 2], 12, 0x12) := by decide +kernel

/-- V13, by RefSort and by another TIEBREAK. -/
theorem test_build_abab_ties :
    (nextOf (exec .cssBuild (issuedState 0x10 4 abab))).map (fun t => t.sa.map (·.2)) = some [0, 2, 3, 1] ∧
      (nextOf (exec .cssBuild { issuedState 0x10 4 abab with tieBreak := [(abab, [2, 0, 3, 1])] })).map (fun t => t.sa.map (·.2))
        = some [2, 0, 3, 1] := by decide +kernel

/-- 41_css.md R129 -/
theorem test_length : (nextOf (exec .cssLength (builtState 0))).map State.result = some 2 := by decide

/-- 41_css.md R130, the last legal row. -/
theorem test_indexat_last_row : (nextOf (exec .cssIndexat (builtState 1))).map State.result = some 0 := by decide

/-- 41_css.md R130: i = N fails with ERRCODE = 4. -/
theorem test_indexat_n_fails : (nextOf (exec .cssIndexat (builtState 2))).map State.status = some 0x416 := by decide

/-- V16 -/
theorem test_transform_abracadabra :
    (nextOf (exec .bwtTransform (issuedState 0x20 12 abra))).map (fun t => (t.obuf.map (·.2), t.olen, t.result))
      = some ([0x00, 0x00, 0x00, 0x03, 0x41, 0x52, 0x44, 0x21, 0x52, 0x43, 0x41, 0x41, 0x41, 0x41, 0x42, 0x42], 16, 3) := by
  decide +kernel

/-- V17 -/
theorem test_inverse_abracadabra :
    (nextOf (exec .bwtInverse (issuedState 0x21 12
      [0x00, 0x00, 0x00, 0x03, 0x41, 0x52, 0x44, 0x21, 0x52, 0x43, 0x41, 0x41, 0x41, 0x41, 0x42, 0x42]))).map
      (fun t => (t.obuf.map (·.2), t.olen, t.next.map (·.2)))
      = some (abra, 12, [3, 0, 6, 7, 8, 9, 10, 11, 5, 2, 1, 4]) := by decide +kernel

/-- V21: 80 00 00 03 is 2147483651, unsigned. -/
theorem test_inverse_first_is_unsigned :
    (nextOf (exec .bwtInverse (issuedState 0x21 12 [0x80, 0x00, 0x00, 0x03]))).map State.status = some 0x806 := by decide

/-- 43_mtf.md R184: after MTF.INIT, MTF.DEC1 65 gives RESULT = 65. -/
theorem test_init :
    (nextOf (exec .mtfInit { issuedState 0x30 65 [] with list := identityList.reverse })).bind
      (fun t => (nextOf (exec .mtfDec1 t)).map State.result) = some 65 := by decide +kernel

/-- 43_mtf.md R185 -/
theorem test_enc1 :
    (nextOf (exec .mtfEnc1 (issuedState 0x31 0x41 []))).map (fun t => (t.result, t.list.take 3, t.list.drop 64 |>.take 3))
      = some (65, [65, 0, 1], [63, 64, 66]) := by decide +kernel

/-- 43_mtf.md R186: k = 255 is legal. -/
theorem test_dec1_last :
    (nextOf (exec .mtfDec1 (issuedState 0x32 255 []))).map (fun t => (t.result, t.list.take 2, t.list.drop 254))
      = some (255, [255, 0], [253, 254]) := by decide +kernel

/-- 43_mtf.md R186: k = 256 fails with ERRCODE = 6. -/
theorem test_dec1_256_fails : (nextOf (exec .mtfDec1 (issuedState 0x32 256 []))).map State.status = some 0x606 := by decide

/-- V25 -/
theorem test_encode_extremes :
    (nextOf (exec .mtfEncode (issuedState 0x33 5 [0x00, 0x01, 0xFF, 0xFF, 0x00]))).map
      (fun t => (t.obuf.map (·.2), t.list.take 4, t.list.drop 255))
      = some ([0x00, 0x01, 0xFF, 0x00, 0x02], [0, 255, 1, 2], [254]) := by decide +kernel

/-- V25 -/
theorem test_decode_extremes :
    (nextOf (exec .mtfDecode (issuedState 0x34 4 [0xFF, 0xFF, 0x00, 0x01]))).map (fun t => (t.obuf.map (·.2), t.list.take 4))
      = some ([0xFF, 0xFE, 0xFE, 0xFF], [255, 254, 0, 1]) := by decide +kernel

/-- 93_implementation_defined.md U1: a message with an unwritten byte stops the machine. -/
theorem test_unwritten_input_faults :
    nextOf (exec .mtfEncode (issuedState 0x33 2 [0x41])) = none ∧
      (nextOf (exec .mtfEncode (issuedState 0x33 1 [0x41]))).isSome = true := by decide +kernel

/-- V3 -/
theorem test_illegal_word_keeps_argv :
    (nextOf (step (({ State.reset with arg := 5, argv := true } : State).withFetchWord 32 0x100))).map State.status
      = some 0x90E := by decide

/-- V1: `CSS.INDEXAT 3` is RegWrite(1, 3), RegWrite(0, 0x12). -/
theorem test_command_line_writes : commandWrites .cssIndexat (some 3) = [.regWrite 1 3, .regWrite 0 0x12] := by decide

/-- 20_memory.md R68: the default map, at the last register and at the ends of the buffers. -/
theorem test_default_bus_map :
    (defaultBusMap 68).locate 28 = some (.reg 7) ∧ (defaultBusMap 68).locate 29 = none ∧
      (defaultBusMap 68).locate (2 ^ 32 + 67) = some (.ibuf 67) ∧ (defaultBusMap 68).locate (2 ^ 33) = some (.obuf 0) := by decide

/-- 42_bwt.md R161 on "AB", as a script (30_encoding.md R97, R99). -/
theorem test_script_round_trip :
    (nextOf (runScript [.put 0 [0x41, 0x42], .command .bwtTransform (some 2), .xfer none, .command .bwtInverse (some 2)]
      State.reset)).map (fun t => (t.obuf.map (·.2) |>.take 2, t.status)) = some ([0x41, 0x42], 0x12) := by decide +kernel

/-! ### Witnesses: each shows a state and operands that meet the hypotheses of the statement it is named after -/

theorem witness_IllegalWordFailsAndChangesNothingElse : State.reset.busy = false ∧ (decode 0x13).instr? = none := by decide

theorem witness_StepRunsTheLatchedCommand :
    (issuedState 0x11 0 []).busy = true ∧ decode (issuedState 0x11 0 []).cmdl = .instr .cssLength ∧
      (issuedState 0x11 0 []).schedule = [] ∧
      ({ issuedState 0x11 0 [] with schedule := [.sequencer] } : State).schedule = .sequencer :: [] ∧
      (issuedState 0x13 0 []).busy = true ∧ (decode (issuedState 0x13 0 []).cmdl).instr? = none ∧
      (issuedState 0x13 0 []).schedule = [] ∧
      State.reset.busy = false ∧ State.reset.schedule = [] ∧
      ({ State.reset with schedule := [.host (.regRead 2)] } : State).schedule = .host (.regRead 2) :: [] ∧
      ({ State.reset with schedule := [.hardReset] } : State).schedule = .hardReset :: [] := by decide

theorem witness_CommandWriteIssuesOrIsDropped :
    State.reset.busy = false ∧ (issuedState 0x10 2 ba).busy = true := by decide

/-- The last index of each space and the first and last ignored register. -/
theorem witness_BusyAccessesReadTrueOrAreDropped :
    (issuedState 0x10 2 ba).busy = true ∧ 67 < (issuedState 0x10 2 ba).bcap ∧ (issuedState 0x10 2 ba).ibuf.read 1 = some 0x41 ∧
      (issuedState 0x10 2 ba).ibuf.read 67 = none ∧ 2 < 8 ∧ 7 < 8 := by decide

/-- A written and an unwritten byte of each buffer, the last index among them. -/
theorem witness_IdleAccesses :
    ({ State.reset with ibuf := [(0, 1)], obuf := [(67, 2)] } : State).busy = false ∧ 67 < State.reset.bcap ∧
      Memory.read [(0, (1 : Byte))] 0 = some 1 ∧ Memory.read [(0, (1 : Byte))] 67 = none ∧
      Memory.read [(67, (2 : Byte))] 67 = some 2 ∧ Memory.read [(67, (2 : Byte))] 0 = none := by decide

theorem witness_OnlyThreeWritesHaveSideEffects :
    HostMove.wf State.reset.bcap (.obufRead 67) = true ∧ State.reset.busy = false ∧ 67 < State.reset.bcap ∧
      HostMove.wf (issuedState 0x10 2 ba).bcap (.ibufWrite 67 0) = true ∧ (issuedState 0x10 2 ba).busy = true := by decide

/-- The first register and the first byte that do not exist. -/
theorem witness_MoveOutsideItsSpaceIsRefused :
    ({ State.reset with schedule := [.host (.regRead 8)] } : State).schedule = [.host (.regRead 8)] ∧
      State.reset.nmax.toNat + 4 ≤ 68 := by decide

theorem witness_CauseCodesAndClasses : Cause.absent ≠ .none ∧ Cause.absent ≠ .first ∧ Cause.absent ≠ .illegal := by decide

theorem witness_NopOnlyClearsTheReport : (builtState 0).busy = false := by decide

theorem witness_SoftResetLeavesTheResetState : (issuedState 1 0 []).cmdl = 1 ∧ (issuedState 1 0 []).busy = true := by decide

/-- The first and the last depth. -/
theorem witness_CharAtIsCyclicWithASentinel : charAt ba 1 1 = 0x42 ∧ charAt ba 1 2 = -1 := by decide

theorem witness_EqualRotationsAreShifts : 0 ≤ 2 ∧ 2 < abab.length ∧ rotation abab 0 = rotation abab 2 := by decide

theorem witness_SuffixOrderIsSorted : State.reset.tieBreak = [] ∧ Sorted abab [2, 0, 3, 1] := by decide +kernel

theorem witness_TiesOnlyTradePlaces :
    Sorted abab [2, 0, 3, 1] ∧ Sorted abab [0, 2, 3, 1] ∧
      (∀ a < ba.length, ∀ b < ba.length, rotation ba a = rotation ba b → a = b) ∧ Sorted ba [1, 0] := by decide +kernel

/-- A text of the greatest length the word 2 of NMAX allows. -/
theorem witness_SortStackNeverOverflows : ba.length ≤ (2 : Word).toNat := by decide

theorem witness_BuildStoresTheSuffixOrder :
    (issuedState 0x10 2 ba).avl = true ∧ (issuedState 0x10 2 ba).argl ≠ 0 ∧
      (issuedState 0x10 2 ba).argl.toNat ≤ (issuedState 0x10 2 ba).nmax.toNat ∧
      (issuedState 0x10 2 ba).ibuf.readBlock 0 (issuedState 0x10 2 ba).argl.toNat = some ba := by decide

theorem witness_LengthReturnsN : (builtState 0).sav = true := by decide

/-- A listed last row, and an unlisted one. -/
theorem witness_IndexAtReturnsTheEntry :
    (builtState 1).avl = true ∧ (builtState 1).sav = true ∧ (builtState 1).argl.toNat < (builtState 1).n.toNat ∧
      (builtState 1).sa.read 1 = some 0 ∧ ({ builtState 1 with sa := [] } : State).sa.read 1 = none := by decide

theorem witness_SorterAnswersForItsText :
    (nextOf (exec .cssBuild (issuedState 0x10 2 ba))).map State.err = some false := by decide

theorem witness_TransformEmitsTheMessage :
    (issuedState 0x20 2 ba).avl = true ∧ (issuedState 0x20 2 ba).argl ≠ 0 ∧
      (issuedState 0x20 2 ba).argl.toNat ≤ (issuedState 0x20 2 ba).nmax.toNat ∧
      (issuedState 0x20 2 ba).ibuf.readBlock 0 (issuedState 0x20 2 ba).argl.toNat = some ba := by decide

theorem witness_FirstIsTheRowOfTheText : ba ≠ [] ∧ Sorted ba [1, 0] := by decide +kernel

theorem witness_LastColumnIsAPermutation : Sorted ba [1, 0] := by decide +kernel

theorem witness_LastColumnDoesNotDependOnTies :
    Sorted abab [2, 0, 3, 1] ∧ Sorted abab [0, 2, 3, 1] ∧ abab ≠ [] := by decide +kernel

/-- first = n - 1, the last legal row. -/
theorem witness_InverseWalksTheTables :
    (issuedState 0x21 2 [0, 0, 0, 1, 0x42, 0x41]).avl = true ∧ (issuedState 0x21 2 [0, 0, 0, 1, 0x42, 0x41]).argl ≠ 0 ∧
      (issuedState 0x21 2 [0, 0, 0, 1, 0x42, 0x41]).ibuf.readBlock 0 4 = some [0, 0, 0, 1] ∧
      (issuedState 0x21 2 [0, 0, 0, 1, 0x42, 0x41]).ibuf.readBlock 4 2 = some [0x42, 0x41] := by decide

theorem witness_TransformThenInverseGivesTheText :
    (nextOf (exec .bwtTransform (issuedState 0x20 2 ba))).map (fun t => (t.err, t.olen, t.obuf.readBlock 0 6))
      = some (false, 6, some [0, 0, 0, 1, 0x42, 0x41]) ∧
      (issuedState 0x21 2 [0, 0, 0, 1, 0x42, 0x41]).ibuf.readBlock 0 6 = some [0, 0, 0, 1, 0x42, 0x41] ∧
      (issuedState 0x21 2 [0, 0, 0, 1, 0x42, 0x41]).avl = true ∧ legalNmax (issuedState 0x20 2 ba).nmax = true ∧
      (issuedState 0x20 2 ba).avl = true ∧ (issuedState 0x20 2 ba).argl ≠ 0 ∧
      (issuedState 0x20 2 ba).ibuf.readBlock 0 2 = some ba ∧
      Sorted abab [2, 0, 3, 1] ∧ [2, 0, 3, 1][0]? = some 2 ∧ rotation abab 2 = abab := by
  decide +kernel

theorem witness_PipelineGivesTheTextBack :
    ({ State.reset with ibuf := Memory.block 0 ba } : State).busy = false ∧ legalNmax State.reset.nmax = true ∧
      1 ≤ ba.length ∧ ba.length ≤ State.reset.nmax.toNat ∧
      ({ State.reset with ibuf := Memory.block 0 ba } : State).ibuf.readBlock 0 ba.length = some ba := by decide

/-- The last byte. -/
theorem witness_EncodeStepMovesTheSymbolToTheFront :
    (issuedState 0x31 255 []).avl = true ∧ (issuedState 0x31 255 []).argl.toNat < 256 ∧
      (issuedState 0x31 255 []).list.Perm identityList := ⟨by decide, by decide, List.Perm.refl _⟩

theorem witness_DecodeStepMovesThePositionToTheFront :
    (issuedState 0x32 255 []).avl = true ∧ (issuedState 0x32 255 []).argl.toNat < 256 ∧
      (issuedState 0x32 255 []).list.Perm identityList := ⟨by decide, by decide, List.Perm.refl _⟩

theorem witness_StepsKeepTheListAPermutation : identityList.Perm identityList ∧ 255 < 256 := ⟨List.Perm.refl _, by decide⟩

theorem witness_FrontHoldsTheLastSymbol :
    (nextOf (exec .mtfEnc1 (issuedState 0x31 65 []))).map State.err = some false ∧
      (nextOf (exec .mtfDec1 (issuedState 0x32 65 []))).map State.err = some false ∧
      (issuedState 0x32 0 []).avl = true ∧ (issuedState 0x32 0 []).argl = 0 ∧ (issuedState 0x32 0 []).list ≠ [] := by
  decide +kernel

theorem witness_DecodeUndoesEncode : identityList.Perm identityList := List.Perm.refl _

/-- The longest legal pass has BCAP = 68 symbols; an empty one is legal too. -/
theorem witness_EncodePassCompletes :
    (issuedState 0x33 2 ba).avl = true ∧ (issuedState 0x33 2 ba).ibuf.readBlock 0 2 = some ba ∧
      (issuedState 0x33 68 (List.replicate 68 0)).argl.toNat ≤ (issuedState 0x33 68 (List.replicate 68 0)).nmax.toNat + 4 := by
  decide

theorem witness_DecodePassCompletes :
    (issuedState 0x34 0 []).avl = true ∧ (issuedState 0x34 0 []).argl.toNat ≤ (issuedState 0x34 0 []).nmax.toNat + 4 ∧
      (issuedState 0x34 0 []).ibuf.readBlock 0 0 = some [] := by decide

theorem witness_StepModeEqualsStreamMode :
    (nextOf (exec .mtfEncode (issuedState 0x33 2 ba))).map State.err = some false ∧
      (nextOf (exec .mtfDecode (issuedState 0x34 2 ba))).map State.err = some false ∧
      (nextOf (exec .mtfInit State.reset)).isSome = true ∧ (issuedState 0x33 2 ba).ibuf.readBlock 0 2 = some ba := by
  decide +kernel

/-- Each clause at the first value that fails it. -/
theorem witness_ChecksReportTheFirstFailure :
    State.reset.avl = false ∧ (issuedState 0x10 0 []).argl = 0 ∧
      (issuedState 0x10 65 []).nmax.toNat < (issuedState 0x10 65 []).argl.toNat ∧
      (issuedState 0x21 1 [0, 0, 0, 1]).ibuf.readBlock 0 4 = some [0, 0, 0, 1] ∧ State.reset.sav = false ∧
      (issuedState 0x12 0 []).sav = false ∧ (builtState 2).n.toNat ≤ (builtState 2).argl.toNat ∧
      256 ≤ (issuedState 0x31 256 []).argl.toNat ∧
      (issuedState 0x33 69 []).nmax.toNat + 4 < (issuedState 0x33 69 []).argl.toNat ∧ (decode 0x13).instr? = none := by decide

theorem witness_FailedCommandChangesOnlyTheReport :
    State.reset.busy = false ∧ (nextOf (complete (State.reset.issued 0x10))).map State.err = some true := by decide

theorem witness_CommandEndsInSuccessOrError : (nextOf (complete State.reset)).isSome = true := by decide

theorem witness_OnlyUnwrittenInputStopsACommand :
    nextOf (exec .cssBuild (issuedState 0x10 1 [])) = none ∧ (issuedState 0x10 1 []).avl = true ∧
      (issuedState 0x10 1 []).argl ≠ 0 ∧ (issuedState 0x10 1 []).ibuf.readBlock 0 1 = none ∧
      (issuedState 0x33 68 []).argl.toNat ≤ (issuedState 0x33 68 []).nmax.toNat + 4 ∧
      (issuedState 0x33 68 []).ibuf.readBlock 0 68 = none ∧
      (issuedState 0x21 1 [0, 0, 0]).ibuf.readBlock 0 4 = none ∧
      (issuedState 0x21 1 [0, 0, 0, 0]).ibuf.readBlock 0 4 = some [0, 0, 0, 0] ∧
      (issuedState 0x21 1 [0, 0, 0, 0]).ibuf.readBlock 4 1 = none := by decide +kernel

/-- 20_memory.md R76 and 60_exceptions.md R214: BWT.INVERSE 1 with T unwritten stops for first = 0 and fails with E_FIRST for
first = 1. -/
theorem test_inverse_unwritten :
    nextOf (exec .bwtInverse (issuedState 0x21 1 [0, 0, 0, 0])) = none ∧
      (nextOf (exec .bwtInverse (issuedState 0x21 1 [0, 0, 0, 1]))).map State.status = some 0x806 := by decide +kernel

theorem witness_IssuedCommandCompletes :
    (issuedState 0x10 2 ba).busy = true ∧ decode (issuedState 0x10 2 ba).cmdl = .instr .cssBuild ∧
      ∀ j < messageSpan .cssBuild (issuedState 0x10 2 ba), ((issuedState 0x10 2 ba).ibuf.read j).isSome = true := by decide

theorem witness_OperandIsUsedOnce :
    takesOperand .mtfEnc1 = true ∧ takesOperand .cssIndexat = true ∧
      (nextOf (complete (({ State.reset with arg := 65, argv := true } : State).issued (encode .mtfEnc1)))).isSome = true := by
  decide +kernel

theorem witness_OnlyTheHostWritesIbuf :
    (nextOf (complete State.reset)).isSome = true ∧
      (nextOf (step { State.reset with schedule := [.host (.ibufWrite 67 1)] })).isSome = true := by decide

theorem witness_EachCommandWritesOnlyItsOwn : (nextOf (exec .cssLength (builtState 0))).isSome = true := by decide

theorem witness_WorkingMemoriesCarryNothingOver :
    ({ builtState 0 with count := [(0, 1)] } : State) = { builtState 0 with
      next := ({ builtState 0 with count := [(0, 1)] } : State).next, count := [(0, 1)] } := by decide +kernel

/-- A busy state that meets the invariants: the state of reset with CSS.BUILD issued and no operand supplied. -/
theorem witness_BusyHostCannotDisturbTheCommand :
    (State.reset.issued 0x10).Inv ∧ (State.reset.issued 0x10).busy = true ∧
      (nextOf (hostMove (.regWrite 1 5) (State.reset.issued 0x10))).isSome = true :=
  ⟨{ nmax_legal := by decide
     busy_not_done := by decide
     busy_no_error := by decide
     report := by decide
     error_done := by decide
     operand_latched := by decide
     operand_used := by decide
     ibuf_fits := by unfold Memory.Fits; decide
     obuf_fits := by unfold Memory.Fits; decide
     sa_fits := by unfold Memory.Fits; decide
     next_fits := by unfold Memory.Fits; decide
     sorted_fits := by unfold Memory.Fits; decide
     count_fits := by unfold Memory.Fits; decide
     list_permutation := List.Perm.refl _
     suffix_array := fun h => absurd h (by decide)
     no_suffix_array := by decide
     message := by decide }, by decide, by decide⟩

theorem witness_BusyChangesOnlyAtIssueCompletionAndReset :
    (nextOf (step { State.reset with schedule := [.host (.regWrite 0 0)] })).map State.busy = some true ∧
      (nextOf (step (issuedState 0 0 []))).map State.busy = some false := by decide

theorem witness_OverrunIsSticky :
    (nextOf (step { issuedState 0 0 [] with schedule := [.host (.ibufWrite 67 1)] })).map State.ovr = some true ∧
      (nextOf (step { issuedState 1 0 [] with ovr := true })).map State.ovr = some false := by decide

theorem witness_OnlyBuildsMakeASuffixArray :
    (nextOf (step (issuedState 0x10 2 ba))).map State.sav = some true ∧
      (nextOf (step { issuedState 1 0 [] with sav := true })).map State.sav = some false := by decide

theorem witness_ParametersNeverChange : (nextOf (step State.reset)).isSome = true := by decide

theorem witness_HardwareResetValues :
    ({ issuedState 0x10 2 ba with schedule := [.hardReset] } : State).schedule = .hardReset :: [] := by decide

theorem witness_HardwareResetAbandonsTheCommand :
    ({ issuedState 0x10 2 ba with schedule := [.hardReset, .host (.regWrite 0 0x11)] } : State).schedule
      = .hardReset :: .host (.regWrite 0 0x11) :: [] := by decide

/-- A state that meets the invariants and steps: the busy one above, whose completion fails with E_ABSENT. -/
theorem witness_EveryStepKeepsTheInvariant :
    (State.reset.issued 0x10).Inv ∧ (nextOf (step (State.reset.issued 0x10))).isSome = true :=
  ⟨witness_BusyHostCannotDisturbTheCommand.1, by decide⟩

theorem witness_EveryStepKeepsTheSorterInvariant :
    (issuedState 0x10 2 ba).SorterInv ∧ (nextOf (step (issuedState 0x10 2 ba))).isSome = true :=
  ⟨{ stack_empty := by decide, stack_fits := by unfold Memory.Fits; decide }, by decide⟩

end Sys2Proof.Tests
end

namespace Sys2Proof

/-! ## The kinds of host primitive -/

/-- A primitive that reads. -/
def HostMove.isRead : HostMove → Bool
  | .regRead _ | .ibufRead _ | .obufRead _ => true
  | .regWrite _ _ | .ibufWrite _ _ => false

/-- A write that BUSY = 1 drops (20_memory.md R62). -/
def HostMove.isDroppable : HostMove → Bool
  | .regWrite k _ => k < 2
  | .ibufWrite _ _ => true
  | .regRead _ | .ibufRead _ | .obufRead _ => false

end Sys2Proof

namespace Sys2Proof.Machine

/-! ## What a completion can be, for every command at once -/

/-- `Effect s i u`: command i, its checks passed and its message written, makes u of s; its completion then only writes the
report. -/
inductive Effect (s : State) : Instr → State → Prop
  | ctlNop : Effect s .ctlNop s
  | ctlReset : Effect s .ctlReset s.softReset
  | cssBuild {text} (hs : s.avl = true) (hpos : s.operand ≠ 0) (hle : s.operand ≤ s.nmax.toNat)
      (hm : s.ibuf.readBlock 0 s.operand = some text) : Effect s .cssBuild (s.buildSuffixArray text)
  | cssLength (hs : s.sav = true) : Effect s .cssLength { s with result := s.n }
  | cssIndexat (hs : s.avl = true) (hv : s.sav = true) (hlt : s.operand < s.n.toNat) :
      Effect s .cssIndexat (s.resultFromSa s.operand)
  | bwtTransform {text} (hs : s.avl = true) (hpos : s.operand ≠ 0) (hle : s.operand ≤ s.nmax.toNat)
      (hm : s.ibuf.readBlock 0 s.operand = some text) : Effect s .bwtTransform (s.writeTransform text)
  | bwtInverse {head column} (hs : s.avl = true) (hpos : s.operand ≠ 0) (hle : s.operand ≤ s.nmax.toNat)
      (hh : s.ibuf.readBlock 0 4 = some head) (hf : be32 head < s.operand)
      (hm : s.ibuf.readBlock 4 s.operand = some column) : Effect s .bwtInverse (s.writeInverse (be32 head) column)
  | mtfInit : Effect s .mtfInit { s with list := identityList }
  | mtfEnc1 (hs : s.avl = true) (hlt : s.operand < 256) :
      Effect s .mtfEnc1 (s.encodeOne (BitVec.ofNat 8 s.operand))
  | mtfDec1 (hs : s.avl = true) (hlt : s.operand < 256) : Effect s .mtfDec1 (s.decodeOne s.operand)
  | mtfEncode {input} (hs : s.avl = true) (hle : s.operand ≤ s.bcap)
      (hm : s.ibuf.readBlock 0 s.operand = some input) : Effect s .mtfEncode (s.encodeMessage input)
  | mtfDecode {input} (hs : s.avl = true) (hle : s.operand ≤ s.bcap)
      (hm : s.ibuf.readBlock 0 s.operand = some input) : Effect s .mtfDecode (s.decodeMessage input)

/-- Everything a completion can be: a failure that changes only the report, or the command's effect, reported a success. -/
theorem exec_next {i : Instr} {s t : State} (h : exec i s = .next t) :
    FailedAs s t ∨ ∃ u, Effect s i u ∧ t = u.succeed := by
  cases i with
  | ctlNop => cases h; exact .inr ⟨_, .ctlNop, rfl⟩
  | ctlReset => cases h; exact .inr ⟨_, .ctlReset, rfl⟩
  | cssBuild =>
    refine (execCssBuild_next h).imp_right ?_
    rintro ⟨text, h1, h2, h3, h4, rfl⟩; exact ⟨_, .cssBuild h1 h2 h3 h4, rfl⟩
  | cssLength =>
    refine (execCssLength_next h).imp_right ?_
    rintro ⟨h1, rfl⟩; exact ⟨_, .cssLength h1, rfl⟩
  | cssIndexat =>
    refine (execCssIndexat_next h).imp_right ?_
    rintro ⟨h1, h2, h3, rfl⟩; exact ⟨_, .cssIndexat h1 h2 h3, rfl⟩
  | bwtTransform =>
    refine (execBwtTransform_next h).imp_right ?_
    rintro ⟨text, h1, h2, h3, h4, rfl⟩; exact ⟨_, .bwtTransform h1 h2 h3 h4, rfl⟩
  | bwtInverse =>
    refine (execBwtInverse_next h).imp_right ?_
    rintro ⟨head, column, h1, h2, h3, h4, h5, h6, rfl⟩; exact ⟨_, .bwtInverse h1 h2 h3 h4 h5 h6, rfl⟩
  | mtfInit => cases h; exact .inr ⟨_, .mtfInit, rfl⟩
  | mtfEnc1 =>
    refine (execMtfEnc1_next h).imp_right ?_
    rintro ⟨h1, h2, rfl⟩; exact ⟨_, .mtfEnc1 h1 h2, rfl⟩
  | mtfDec1 =>
    refine (execMtfDec1_next h).imp_right ?_
    rintro ⟨h1, h2, rfl⟩; exact ⟨_, .mtfDec1 h1 h2, rfl⟩
  | mtfEncode =>
    refine (execMtfEncode_next h).imp_right ?_
    rintro ⟨input, h1, h2, h3, rfl⟩; exact ⟨_, .mtfEncode h1 h2 h3, rfl⟩
  | mtfDecode =>
    refine (execMtfDecode_next h).imp_right ?_
    rintro ⟨input, h1, h2, h3, rfl⟩; exact ⟨_, .mtfDecode h1 h2 h3, rfl⟩

/-- A command whose checks pass goes on with its body. -/
theorem State.checked_of_pass {s : State} {checks : List (Bool × Cause)} {k : State → Host.Outcome State Fault Refusal}
    (h : firstFailure checks = .none) : s.checked checks k = k s := by
  rw [State.checked_eq, if_pos h]

/-- A command with an effect completes with it. -/
theorem Effect.exec_eq {i : Instr} {s u : State} (h : Effect s i u) : exec i s = .next u.succeed := by
  cases h with
  | ctlNop => rfl
  | ctlReset => rfl
  | cssBuild h1 h2 h3 hm =>
    rw [exec, execCssBuild, State.checked_of_pass (s.textChecks_pass.2 ⟨h1, h2, h3⟩), State.withInput_some hm]
  | cssLength h1 => rw [exec, execCssLength, State.checked_of_pass (s.lengthChecks_pass.2 h1)]
  | cssIndexat h1 h2 h3 => rw [exec, execCssIndexat, State.checked_of_pass (s.indexChecks_pass.2 ⟨h1, h2, h3⟩)]
  | bwtTransform h1 h2 h3 hm =>
    rw [exec, execBwtTransform, State.checked_of_pass (s.textChecks_pass.2 ⟨h1, h2, h3⟩), State.withInput_some hm]
  | @bwtInverse head column h1 h2 h3 hh hf hm =>
    have hfirst : firstFailure [(decide (s.operand ≤ be32 head), Cause.first)] = .none := by
      simp only [firstFailure, decide_eq_true_eq, if_neg (Nat.not_le.2 hf)]
    rw [exec, execBwtInverse, State.checked_of_pass (s.textChecks_pass.2 ⟨h1, h2, h3⟩), State.withInput_some hh,
      State.checked_of_pass hfirst, State.withInput_some hm]
  | mtfInit => rfl
  | mtfEnc1 h1 h2 => rw [exec, execMtfEnc1, State.checked_of_pass (s.symbolChecks_pass.2 ⟨h1, h2⟩)]
  | mtfDec1 h1 h2 => rw [exec, execMtfDec1, State.checked_of_pass (s.positionChecks_pass.2 ⟨h1, h2⟩)]
  | mtfEncode h1 h2 hm =>
    rw [exec, execMtfEncode, State.checked_of_pass (s.streamChecks_pass.2 ⟨h1, h2⟩), State.withInput_some hm]
  | mtfDecode h1 h2 hm =>
    rw [exec, execMtfDecode, State.checked_of_pass (s.streamChecks_pass.2 ⟨h1, h2⟩), State.withInput_some hm]

/-- Everything the completion of the word in CMDL can be. -/
theorem complete_next_cases {s t : State} (h : complete s = .next t) :
    FailedAs s t ∨ ∃ i u, decode s.cmdl = .instr i ∧ Effect s i u ∧ t = u.succeed := by
  rcases complete_next h with ⟨i, hi, h⟩ | ⟨-, rfl⟩
  · exact (exec_next h).imp_right fun ⟨u, hu, ht⟩ => ⟨i, u, hi, hu, ht⟩
  · exact .inl ⟨.illegal, by decide, rfl⟩

/-- Settles O44: a completion is a failure with a cause, which writes the report only, or a success (`complete_next_cases`). -/
theorem commandEndsInSuccessOrError : Obligations.CommandEndsInSuccessOrError := by
  unfold Obligations.CommandEndsInSuccessOrError
  intro s t h
  rcases complete_next_cases h with ⟨c, hc, rfl⟩ | ⟨i, u, -, -, rfl⟩
  · exact ⟨rfl, rfl, .inr ⟨rfl, hc, rfl⟩⟩
  · exact ⟨rfl, rfl, .inl ⟨rfl, rfl⟩⟩

/-! ## The parameters -/

/-- Two states with the same parameters NMAX and TIEBREAK. -/
def State.SameParameters (s t : State) : Prop := t.nmax = s.nmax ∧ t.tieBreak = s.tieBreak

theorem State.resultFromSa_sameParameters (s : State) (i : Nat) : s.SameParameters (s.resultFromSa i) := by
  unfold State.resultFromSa
  split <;> exact ⟨rfl, rfl⟩

/-- No command's effect touches the parameters. -/
theorem Effect.sameParameters {s u : State} {i : Instr} (h : Effect s i u) : s.SameParameters u := by
  cases h with
  | cssIndexat => exact s.resultFromSa_sameParameters s.operand
  | _ => exact ⟨rfl, rfl⟩

theorem complete_sameParameters {s t : State} (h : complete s = .next t) : s.SameParameters t := by
  rcases complete_next_cases h with ⟨c, -, rfl⟩ | ⟨i, u, -, hu, rfl⟩
  · exact ⟨rfl, rfl⟩
  · exact hu.sameParameters

theorem sequencerTurn_sameParameters {s t : State} (h : sequencerTurn s = .next t) : s.SameParameters t := by
  rcases sequencerTurn_next h with ⟨-, h⟩ | ⟨-, rfl⟩
  · exact complete_sameParameters h
  · exact ⟨rfl, rfl⟩

/-- `MoveEffect s m u`: everything the primitive m can make of s (20_memory.md R61, R62, R67). -/
inductive MoveEffect (s : State) : HostMove → State → Prop
  | issue {v} (hb : s.busy = false) : MoveEffect s (.regWrite 0 v) (s.issue v)
  | writeArg {v} (hb : s.busy = false) : MoveEffect s (.regWrite 1 v) { s with arg := v, argv := true }
  | writeIbuf {j b} (hb : s.busy = false) : MoveEffect s (.ibufWrite j b) { s with ibuf := s.ibuf.write j b }
  | dropped {m} (hb : s.busy = true) (hm : m.isDroppable = true) : MoveEffect s m s.overrun
  | ignored {k v} (hk : 2 ≤ k) : MoveEffect s (.regWrite k v) s
  | read {m} (r : Reply) (d : Nat) (hm : m.isRead = true) :
      MoveEffect s m { s with replies := r :: s.replies, drawn := d }

theorem State.regRead_effect (s : State) (k : Nat) : MoveEffect s (.regRead k) (s.regRead k) := by
  unfold State.regRead
  split
  case h_3 | h_4 => split_ifs <;> exact .read _ _ rfl
  all_goals exact .read _ _ rfl

theorem State.regWrite_effect (s : State) (k : Nat) (v : Word) : MoveEffect s (.regWrite k v) (s.regWrite k v) := by
  unfold State.regWrite
  split
  · split_ifs with hb
    · exact .dropped hb rfl
    · exact .issue (Bool.eq_false_iff.2 hb)
  · split_ifs with hb
    · exact .dropped hb rfl
    · exact .writeArg (Bool.eq_false_iff.2 hb)
  · next h0 h1 => exact .ignored (Nat.two_le_iff k |>.2 ⟨h0, h1⟩)

theorem State.ibufWrite_effect (s : State) (j : Nat) (b : Byte) : MoveEffect s (.ibufWrite j b) (s.ibufWrite j b) := by
  unfold State.ibufWrite
  split_ifs with hb
  · exact .dropped hb rfl
  · exact .writeIbuf (Bool.eq_false_iff.2 hb)

theorem State.ibufRead_effect (s : State) (j : Nat) : MoveEffect s (.ibufRead j) (s.ibufRead j) := by
  unfold State.ibufRead
  split <;> exact .read _ _ rfl

theorem State.obufRead_effect (s : State) (j : Nat) : MoveEffect s (.obufRead j) (s.obufRead j) := by
  unfold State.obufRead
  split_ifs
  · exact .read _ _ rfl
  · split <;> exact .read _ _ rfl

theorem State.perform_effect (s : State) (m : HostMove) : MoveEffect s m (s.perform m) := by
  cases m with
  | regRead k => exact s.regRead_effect k
  | regWrite k v => exact s.regWrite_effect k v
  | ibufWrite j b => exact s.ibufWrite_effect j b
  | ibufRead j => exact s.ibufRead_effect j
  | obufRead j => exact s.obufRead_effect j

/-- No primitive of the host touches the parameters: a write of register 5 is ignored (10_state.md R32). -/
theorem MoveEffect.sameParameters {s u : State} {m : HostMove} (h : MoveEffect s m u) : s.SameParameters u := by
  cases h <;> exact ⟨rfl, rfl⟩

/-- Settles O55: at each of the four kinds of event the parameters stay. -/
theorem parametersNeverChange : Obligations.ParametersNeverChange := by
  unfold Obligations.ParametersNeverChange
  intro s t h
  rcases step_next h with ⟨-, h⟩ | ⟨rest, -, h⟩ | ⟨rest, -, rfl⟩ | ⟨m, rest, -, -, rfl⟩
  · exact sequencerTurn_sameParameters h
  · exact (sequencerTurn_sameParameters h : State.SameParameters { s with schedule := rest } t)
  · exact ⟨rfl, rfl⟩
  · exact (State.perform_effect { s with schedule := rest } m).sameParameters

/-! ## Rotations and their order -/

@[simp] theorem length_rotation (text : List Byte) (a : Nat) : (rotation text a).length = text.length := by
  simp [rotation]

theorem getElem?_rotation (text : List Byte) (a : Nat) {d : Nat} (hd : d < text.length) :
    (rotation text a)[d]? = some (symbolAt text ((a + d) % text.length)) := by
  simp [rotation, hd]

theorem getElem?_eq_symbolAt {text : List Byte} {j : Nat} (hj : j < text.length) :
    text[j]? = some (symbolAt text j) := by
  simp [symbolAt, hj]

/-- Two rotations are equal exactly when they agree at every depth. -/
theorem rotation_eq_iff (text : List Byte) (a b : Nat) :
    rotation text a = rotation text b ↔
      ∀ d < text.length, symbolAt text ((a + d) % text.length) = symbolAt text ((b + d) % text.length) := by
  simp [rotation]

/-- Settles O16: depth d of rot(a) is text[i] for i = (a + d) mod n, and depth d of rot(b) is then
text[(i + (b - a)) mod n]; as d runs through 0..n-1, so does i. -/
theorem equalRotationsAreShifts : Obligations.EqualRotationsAreShifts := by
  unfold Obligations.EqualRotationsAreShifts
  intro text a b hab hb
  have hn : 0 < text.length := by omega
  rw [rotation_eq_iff]
  constructor
  · intro h i hi
    obtain ⟨d, hd, hai⟩ : ∃ d < text.length, a + d = i ∨ a + d = i + text.length := by
      by_cases hia : a ≤ i
      · exact ⟨i - a, by omega, by omega⟩
      · exact ⟨i + text.length - a, by omega, by omega⟩
    have ha : (a + d) % text.length = i := by
      rcases hai with h | h <;> simp [h, Nat.mod_eq_of_lt hi]
    have hbd : (b + d) % text.length = (i + (b - a)) % text.length := by
      rw [← ha, Nat.mod_add_mod]; congr 1; omega
    rw [getElem?_eq_symbolAt hi, getElem?_eq_symbolAt (Nat.mod_lt _ hn), ← hbd, ← h d hd, ha]
  · intro h d hd
    have hbd : ((a + d) % text.length + (b - a)) % text.length = (b + d) % text.length := by
      rw [Nat.mod_add_mod]; congr 1; omega
    have := h _ (Nat.mod_lt (a + d) hn)
    rw [hbd, getElem?_eq_symbolAt (Nat.mod_lt _ hn), getElem?_eq_symbolAt (Nat.mod_lt _ hn)] at this
    exact Option.some.inj this

end Sys2Proof.Machine

namespace Sys2Proof.Machine

/-! ## The lexicographic order of texts -/

theorem lexLe_cons_iff (x y : Byte) (xs ys : List Byte) :
    lexLe (x :: xs) (y :: ys) = true ↔ x.toNat < y.toNat ∨ (x = y ∧ lexLe xs ys = true) := by
  rw [lexLe, ← BitVec.toNat_inj]
  split_ifs with h1 h2
  · simp [h1]
  · simp only [false_iff, not_or, not_and]; omega
  · have : x.toNat = y.toNat := by omega
    simp [this]

@[simp] theorem lexLe_refl (xs : List Byte) : lexLe xs xs = true := by
  induction xs with
  | nil => rfl
  | cons x xs ih => exact (lexLe_cons_iff ..).2 (.inr ⟨rfl, ih⟩)

theorem lexLe_antisymm {xs ys : List Byte} (h : lexLe xs ys = true) (h' : lexLe ys xs = true) : xs = ys := by
  induction xs generalizing ys with
  | nil =>
    cases ys with
    | nil => rfl
    | cons y ys => cases h'
  | cons x xs ih =>
    cases ys with
    | nil => cases h
    | cons y ys =>
      rw [lexLe_cons_iff] at h h'
      rcases h with h | ⟨rfl, h⟩
      · rcases h' with h' | ⟨rfl, -⟩ <;> omega
      · rcases h' with h' | ⟨-, h'⟩
        · omega
        · rw [ih h h']

/-- Texts that agree up to place k and ascend there are in order. -/
theorem lexLe_of_lt_at {k : Nat} {xs ys : List Byte} {x y : Byte} (hagree : ∀ e < k, xs[e]? = ys[e]?)
    (hx : xs[k]? = some x) (hy : ys[k]? = some y) (hlt : x.toNat < y.toNat) : lexLe xs ys = true := by
  induction k generalizing xs ys with
  | zero =>
    cases xs with
    | nil => rfl
    | cons a xs =>
      cases ys with
      | nil => cases hy
      | cons b ys => cases hx; cases hy; exact (lexLe_cons_iff ..).2 (.inl hlt)
  | succ k ih =>
    cases xs with
    | nil => rfl
    | cons a xs =>
      cases ys with
      | nil => cases hy
      | cons b ys =>
        have hab : a = b := by simpa using hagree 0 (by omega)
        exact (lexLe_cons_iff ..).2 (.inr ⟨hab, ih (fun e he => by simpa using hagree (e + 1) (by omega)) hx hy⟩)

/-! ## Characters of rotations -/

theorem charAt_of_lt {text : List Byte} (off : Nat) {d : Nat} (hd : d < text.length) :
    charAt text off d = ((symbolAt text ((off + d) % text.length)).toNat : Int) := if_pos hd

theorem charAt_of_ge {text : List Byte} (off : Nat) {d : Nat} (hd : text.length ≤ d) : charAt text off d = -1 :=
  if_neg (Nat.not_lt.2 hd)

theorem charAt_nonneg_iff (text : List Byte) (off d : Nat) : 0 ≤ charAt text off d ↔ d < text.length := by
  rcases lt_or_ge d text.length with hd | hd
  · simp [charAt_of_lt off hd, hd]
  · simp [charAt_of_ge off hd, hd]

/-- The rotations at a and b agree in their first d characters. -/
def Agree (text : List Byte) (d a b : Nat) : Prop := ∀ e < d, charAt text a e = charAt text b e

theorem agree_succ {text : List Byte} {d a b : Nat} (h : Agree text d a b) (hd : charAt text a d = charAt text b d) :
    Agree text (d + 1) a b := fun e he => (Nat.lt_succ_iff_lt_or_eq.1 he).elim (h e) (by rintro rfl; exact hd)

theorem Agree.getElem?_rotation {text : List Byte} {d a b : Nat} (h : Agree text d a b) {e : Nat} (he : e < d) :
    (rotation text a)[e]? = (rotation text b)[e]? := by
  rcases lt_or_ge e text.length with hn | hn
  · have := h e he
    rw [charAt_of_lt a hn, charAt_of_lt b hn, Nat.cast_inj, BitVec.toNat_inj] at this
    rw [Machine.getElem?_rotation text a hn, Machine.getElem?_rotation text b hn, this]
  · rw [List.getElem?_eq_none (by simpa using hn), List.getElem?_eq_none (by simpa using hn)]

/-- Rotations that agree in all n characters are equal. -/
theorem Agree.rotation_eq {text : List Byte} {d a b : Nat} (h : Agree text d a b) (hd : text.length ≤ d) :
    rotation text a = rotation text b := by
  refine List.ext_getElem? fun e => ?_
  rcases lt_or_ge e d with he | he
  · exact h.getElem?_rotation he
  · rw [List.getElem?_eq_none (by simp; omega), List.getElem?_eq_none (by simp; omega)]

/-- Rotations that agree in d characters and ascend at the next are in order. -/
theorem Agree.rotLe_of_charAt_lt {text : List Byte} {d a b : Nat} (h : Agree text d a b)
    (hlt : charAt text a d < charAt text b d) : rotLe text a b = true := by
  have hd : d < text.length := by
    by_contra hn
    rw [charAt_of_ge a (Nat.not_lt.1 hn), charAt_of_ge b (Nat.not_lt.1 hn)] at hlt
    exact lt_irrefl _ hlt
  rw [charAt_of_lt a hd, charAt_of_lt b hd, Nat.cast_lt] at hlt
  exact lexLe_of_lt_at (fun e he => h.getElem?_rotation he) (Machine.getElem?_rotation text a hd)
    (Machine.getElem?_rotation text b hd) hlt

/-! ## Swaps, and rearrangements of a range -/

theorem getD_swapEntries {sa : List Nat} {a b : Nat} (ha : a < sa.length) (hb : b < sa.length) (k : Nat) :
    (swapEntries sa a b).getD k 0 = if k = b then sa.getD a 0 else if k = a then sa.getD b 0 else sa.getD k 0 := by
  simp only [swapEntries, List.getD_eq_getElem?_getD, List.getElem?_set, List.length_set]
  by_cases hkb : k = b
  · subst hkb; simp [hb]
  · by_cases hka : k = a
    · subst hka; simp [ha, hkb, Ne.symm hkb]
    · simp [hka, hkb, Ne.symm hka, Ne.symm hkb]

theorem swapEntries_perm {sa : List Nat} {a b : Nat} (ha : a < sa.length) (hb : b < sa.length) :
    (swapEntries sa a b).Perm sa := by
  simpa [swapEntries, ha, hb] using List.set_set_perm ha hb

/-- `sa'` is `sa` with the entries of the range [lo, hi] rearranged among themselves. -/
structure RearrangedIn (lo hi : Nat) (sa sa' : List Nat) : Prop where
  perm : sa'.Perm sa
  outside : ∀ k, k < lo ∨ hi < k → sa'.getD k 0 = sa.getD k 0
  inside : ∀ k, lo ≤ k → k ≤ hi → ∃ j, lo ≤ j ∧ j ≤ hi ∧ sa'.getD k 0 = sa.getD j 0

theorem RearrangedIn.refl (lo hi : Nat) (sa : List Nat) : RearrangedIn lo hi sa sa :=
  ⟨.refl sa, fun _ _ => rfl, fun k h1 h2 => ⟨k, h1, h2, rfl⟩⟩

theorem RearrangedIn.swap {lo hi a b : Nat} {sa sa' : List Nat} (h : RearrangedIn lo hi sa sa')
    (ha : lo ≤ a) (ha' : a ≤ hi) (hb : lo ≤ b) (hb' : b ≤ hi) (hhi : hi < sa'.length) :
    RearrangedIn lo hi sa (swapEntries sa' a b) := by
  have hget := getD_swapEntries (sa := sa') (a := a) (b := b) (by omega) (by omega)
  refine ⟨(swapEntries_perm (by omega) (by omega)).trans h.perm, fun k hk => ?_, fun k h1 h2 => ?_⟩
  · rw [hget, if_neg (by omega), if_neg (by omega), h.outside k hk]
  · rw [hget]
    split_ifs
    · exact h.inside a ha ha'
    · exact h.inside b hb hb'
    · exact h.inside k h1 h2

/-! ## The partition (41_css.md R126) -/

/-- What holds at every turn of the scan of SA[lo..hi] at depth d with pivot v: the entries below lt are less than v, those
from lt to i - 1 equal to it, those above gt greater. -/
structure ScanInv (text : List Byte) (d : Nat) (v : Int) (lo hi : Nat) (sa : List Nat) (c : Scan) : Prop where
  rearranged : RearrangedIn lo hi sa c.sa
  lo_le_lt : lo ≤ c.lt
  lt_lt_i : c.lt < c.i
  i_le_gt : c.i ≤ c.gt + 1
  gt_le_hi : c.gt ≤ hi
  less : ∀ k, lo ≤ k → k < c.lt → charAt text (c.sa.getD k 0) d < v
  equal : ∀ k, c.lt ≤ k → k < c.i → charAt text (c.sa.getD k 0) d = v
  greater : ∀ k, c.gt < k → k ≤ hi → v < charAt text (c.sa.getD k 0) d

theorem scanStep_keeps_scanInv {text : List Byte} {d : Nat} {v : Int} {lo hi : Nat} {sa : List Nat} {c : Scan}
    (h : ScanInv text d v lo hi sa c) (hhi : hi < sa.length) (hi' : c.i ≤ c.gt) :
    ScanInv text d v lo hi sa (scanStep text d v c) := by
  obtain ⟨hre, hlo, hlt, hgt, hgh, hless, hequal, hgreater⟩ := h
  have hlen : hi < c.sa.length := by rw [hre.perm.length_eq]; exact hhi
  unfold scanStep
  split_ifs with h1 h2
  · have hget := getD_swapEntries (sa := c.sa) (a := c.lt) (b := c.i) (by omega) (by omega)
    refine ⟨hre.swap hlo (by omega) (by omega) (by omega) hlen, by simp; omega, by simp; omega, by simp; omega, hgh,
      fun k hk hk' => ?_, fun k hk hk' => ?_, fun k hk hk' => ?_⟩ <;> simp only at hk hk' ⊢ <;> rw [hget]
    · rw [if_neg (by omega)]
      split_ifs with hk2
      · exact h1
      · exact hless k hk (by omega)
    · split_ifs with hk1 hk2
      · exact hequal c.lt le_rfl hlt
      · omega
      · exact hequal k (by omega) (by omega)
    · rw [if_neg (by omega), if_neg (by omega)]; exact hgreater k hk hk'
  · have hget := getD_swapEntries (sa := c.sa) (a := c.i) (b := c.gt) (by omega) (by omega)
    refine ⟨hre.swap (by omega) (by omega) (by omega) hgh hlen, hlo, hlt, by simp; omega, by simp; omega,
      fun k hk hk' => ?_, fun k hk hk' => ?_, fun k hk hk' => ?_⟩ <;> simp only at hk hk' ⊢ <;> rw [hget]
    · rw [if_neg (by omega), if_neg (by omega)]; exact hless k hk hk'
    · rw [if_neg (by omega), if_neg (by omega)]; exact hequal k hk hk'
    · split_ifs with hk1 hk2
      · exact h2
      · omega
      · exact hgreater k (by omega) hk'
  · refine ⟨hre, hlo, by simp; omega, by simp; omega, hgh, hless, fun k hk hk' => ?_, hgreater⟩
    rcases Nat.lt_succ_iff_lt_or_eq.1 hk' with hk' | rfl
    · exact hequal k hk hk'
    · exact le_antisymm (not_lt.1 h2) (not_lt.1 h1)

/-- A scan with enough fuel keeps the invariant and ends with i just above gt. -/
theorem scan_ends {text : List Byte} {d : Nat} {v : Int} {lo hi : Nat} {sa : List Nat} {fuel : Nat} {c : Scan}
    (h : ScanInv text d v lo hi sa c) (hhi : hi < sa.length) (hf : c.gt + 1 ≤ c.i + fuel) :
    ScanInv text d v lo hi sa (scan text d v fuel c) ∧
      (scan text d v fuel c).i = (scan text d v fuel c).gt + 1 := by
  induction fuel generalizing c with
  | zero => exact ⟨h, by have := h.i_le_gt; simp only [scan]; omega⟩
  | succ fuel ih =>
    unfold scan
    split_ifs with hc
    · refine ih (scanStep_keeps_scanInv h hhi hc) ?_
      have := h.lt_lt_i
      unfold scanStep
      split_ifs <;> simp <;> omega
    · exact ⟨h, by have := h.i_le_gt; omega⟩

/-- The partition of a work item leaves three parts: less than the pivot, equal to it, and greater. -/
theorem partitionItem_ends (text : List Byte) {sa : List Nat} {w : WorkItem} (hw : w.lo < w.hi) (hhi : w.hi < sa.length) :
    ScanInv text w.d (charAt text (sa.getD w.lo 0) w.d) w.lo w.hi sa (partitionItem text sa w) ∧
      (partitionItem text sa w).i = (partitionItem text sa w).gt + 1 := by
  refine scan_ends ⟨.refl .., le_rfl, by simp, by simp; omega, le_rfl, fun k hk hk' => ?_, fun k hk hk' => ?_,
    fun k hk hk' => ?_⟩ hhi (by simp; omega) <;> simp only at hk hk' ⊢
  · omega
  · rw [show k = w.lo by omega]
  · omega

/-! ## The work items (41_css.md R125, R127, R128) -/

/-- Work items that cover disjoint ranges. -/
def WorkItem.Apart (v w : WorkItem) : Prop := v.hi < w.lo ∨ w.hi < v.lo

/-- A work item of a sort in progress: a range of SA with at least two entries, whose rotations agree in d characters. -/
structure WorkItem.Fits (text : List Byte) (sa : List Nat) (w : WorkItem) : Prop where
  two : w.lo < w.hi
  hi_lt : w.hi < text.length
  depth : w.d ≤ text.length
  agree : ∀ i j, w.lo ≤ i → i ≤ w.hi → w.lo ≤ j → j ≤ w.hi → Agree text w.d (sa.getD i 0) (sa.getD j 0)

/-- SA is a permutation of the offsets, and the work items are disjoint ranges of it (41_css.md R128). -/
structure SortRun.ItemsInv (text : List Byte) (r : SortRun) : Prop where
  perm : r.sa.Perm (List.range text.length)
  fits : ∀ w ∈ r.items, w.Fits text r.sa
  apart : r.items.Pairwise WorkItem.Apart

/-- Rows i < j of SA are in order, or some work item still covers both. -/
def SortRun.OrderedOutside (text : List Byte) (r : SortRun) : Prop :=
  ∀ i j, i < j → j < text.length → rotLe text (r.sa.getD i 0) (r.sa.getD j 0) = true ∨ ∃ w ∈ r.items, w.lo ≤ i ∧ j ≤ w.hi

theorem SortRun.mem_items_pushPart {r : SortRun} {ok : Bool} {w x : WorkItem} :
    x ∈ (r.pushPart ok w).items ↔ (ok = true ∧ w.lo < w.hi ∧ x = w) ∨ x ∈ r.items := by
  unfold SortRun.pushPart
  by_cases hok : ok = true <;> by_cases hw : w.lo < w.hi <;> simp [hok, hw, SortRun.push]

theorem SortRun.ItemsInv.pushPart {text : List Byte} {r : SortRun} (h : r.ItemsInv text) {ok : Bool} {w : WorkItem}
    (hfits : ok = true → w.lo < w.hi → w.Fits text r.sa) (hapart : ok = true → ∀ x ∈ r.items, w.Apart x) :
    (r.pushPart ok w).ItemsInv text := by
  unfold SortRun.pushPart
  split_ifs with hok
  · obtain ⟨hok, hw⟩ : ok = true ∧ w.lo < w.hi := by simpa using hok
    exact ⟨h.perm, List.forall_mem_cons.2 ⟨hfits hok hw, h.fits⟩, List.pairwise_cons.2 ⟨hapart hok, h.apart⟩⟩
  · exact h

/-- A work item apart from a rearranged range still fits. -/
theorem WorkItem.Fits.rearranged {text : List Byte} {sa sa' : List Nat} {w x : WorkItem} (h : x.Fits text sa)
    (hre : RearrangedIn w.lo w.hi sa sa') (hapart : w.Apart x) : x.Fits text sa' := by
  have hout : ∀ k, x.lo ≤ k → k ≤ x.hi → sa'.getD k 0 = sa.getD k 0 := fun k h1 h2 =>
    hre.outside k (by unfold WorkItem.Apart at hapart; omega)
  refine ⟨h.two, h.hi_lt, h.depth, fun i j h1 h2 h3 h4 => ?_⟩
  rw [hout i h1 h2, hout j h3 h4]
  exact h.agree i j h1 h2 h3 h4

/-- The greater part of a partitioned work item (41_css.md R127). -/
def WorkItem.greaterPart (w : WorkItem) (c : Scan) : WorkItem := { lo := c.gt + 1, hi := w.hi, d := w.d }

/-- The equal part, one character deeper. -/
def WorkItem.equalPart (w : WorkItem) (c : Scan) : WorkItem := { lo := c.lt, hi := c.gt, d := w.d + 1 }

/-- The lesser part. -/
def WorkItem.lesserPart (w : WorkItem) (c : Scan) : WorkItem := { lo := w.lo, hi := c.lt - 1, d := w.d }

/-- The sort after the popped work item was partitioned, before its parts are pushed. -/
def SortRun.afterPartition (text : List Byte) (r : SortRun) (w : WorkItem) (rest : List WorkItem) : SortRun :=
  { sa := (partitionItem text r.sa w).sa, items := rest, mem := r.mem, lt := (partitionItem text r.sa w).lt,
    gt := (partitionItem text r.sa w).gt, i := (partitionItem text r.sa w).i, v := charAt text (r.sa.getD w.lo 0) w.d }

theorem sortRound_cons (text : List Byte) {r : SortRun} {w : WorkItem} {rest : List WorkItem} (h : r.items = w :: rest) :
    sortRound text r = (((r.afterPartition text w rest).pushPart true (w.greaterPart (partitionItem text r.sa w))).pushPart
      (decide (0 ≤ charAt text (r.sa.getD w.lo 0) w.d)) (w.equalPart (partitionItem text r.sa w))).pushPart
      (decide (w.lo < (partitionItem text r.sa w).lt)) (w.lesserPart (partitionItem text r.sa w)) := by
  unfold sortRound
  rw [h]
  rfl

theorem sortRound_nil (text : List Byte) {r : SortRun} (h : r.items = []) : sortRound text r = r := by
  unfold sortRound
  rw [h]

theorem sortRound_cons_sa (text : List Byte) {r : SortRun} {w : WorkItem} {rest : List WorkItem} (h : r.items = w :: rest) :
    (sortRound text r).sa = (partitionItem text r.sa w).sa := by
  rw [sortRound_cons text h]
  simp only [SortRun.pushPart_sa]
  rfl

/-- The work items after a round: the others, and the parts that were pushed. -/
theorem mem_items_sortRound_cons (text : List Byte) {r : SortRun} {w : WorkItem} {rest : List WorkItem}
    (h : r.items = w :: rest) (x : WorkItem) : x ∈ (sortRound text r).items ↔
      (w.lo < (partitionItem text r.sa w).lt ∧ w.lo < (partitionItem text r.sa w).lt - 1 ∧
        x = w.lesserPart (partitionItem text r.sa w)) ∨
      (0 ≤ charAt text (r.sa.getD w.lo 0) w.d ∧ (partitionItem text r.sa w).lt < (partitionItem text r.sa w).gt ∧
        x = w.equalPart (partitionItem text r.sa w)) ∨
      ((partitionItem text r.sa w).gt + 1 < w.hi ∧ x = w.greaterPart (partitionItem text r.sa w)) ∨ x ∈ rest := by
  rw [sortRound_cons text h]
  simp only [SortRun.mem_items_pushPart, decide_eq_true_eq, true_and]
  rfl

section Round

variable {text : List Byte} {r : SortRun} {w : WorkItem} {rest : List WorkItem}

/-- In an invariant sort the work item on top of the stack is partitioned as R126 says. -/
theorem SortRun.ItemsInv.partition_top (h : r.ItemsInv text) (hr : r.items = w :: rest) :
    ScanInv text w.d (charAt text (r.sa.getD w.lo 0) w.d) w.lo w.hi r.sa (partitionItem text r.sa w) ∧
      (partitionItem text r.sa w).i = (partitionItem text r.sa w).gt + 1 := by
  have hw := h.fits w (by simp [hr])
  exact partitionItem_ends text hw.two (by rw [h.perm.length_eq, List.length_range]; exact hw.hi_lt)

/-- After the partition the rotations of the item still agree in d characters. -/
theorem SortRun.ItemsInv.agree_after_partition (h : r.ItemsInv text) (hr : r.items = w :: rest) {i j : Nat}
    (hi : w.lo ≤ i) (hi' : i ≤ w.hi) (hj : w.lo ≤ j) (hj' : j ≤ w.hi) :
    Agree text w.d ((partitionItem text r.sa w).sa.getD i 0) ((partitionItem text r.sa w).sa.getD j 0) := by
  have hre := (h.partition_top hr).1.rearranged
  obtain ⟨a, ha, ha', hia⟩ := hre.inside i hi hi'
  obtain ⟨b, hb, hb', hjb⟩ := hre.inside j hj hj'
  rw [hia, hjb]
  exact (h.fits w (by simp [hr])).agree a b ha ha' hb hb'

theorem sortRound_keeps_itemsInv (h : r.ItemsInv text) : (sortRound text r).ItemsInv text := by
  cases hr : r.items with
  | nil => rwa [sortRound_nil text hr]
  | cons w rest =>
    obtain ⟨hscan, hend⟩ := h.partition_top hr
    obtain ⟨hwrest, hrest⟩ := List.pairwise_cons.1 (hr ▸ h.apart)
    have hw := h.fits w (by simp [hr])
    have hagree := fun i j => h.agree_after_partition hr (i := i) (j := j)
    have hlo := hscan.lo_le_lt
    have hlt := hscan.lt_lt_i
    have hgt := hscan.gt_le_hi
    have hlen := hw.hi_lt
    rw [sortRound_cons text hr]
    have h0 : (r.afterPartition text w rest).ItemsInv text :=
      ⟨hscan.rearranged.perm.trans h.perm,
        fun x hx => (h.fits x (by simp [hr, (show x ∈ rest from hx)])).rearranged hscan.rearranged (hwrest x hx), hrest⟩
    refine ((h0.pushPart (fun _ hp => ?_) fun _ x hx => ?_).pushPart (fun hok hp => ?_) fun _ x hx => ?_).pushPart
      (fun hok hp => ?_) fun hok x hx => ?_
    · exact ⟨hp, hlen, hw.depth, fun i j h1 h2 h3 h4 => hagree i j (by simp [WorkItem.greaterPart] at h1; omega) h2
        (by simp [WorkItem.greaterPart] at h3; omega) h4⟩
    · have := hwrest x hx
      simp only [WorkItem.Apart, WorkItem.greaterPart] at this ⊢
      omega
    · have hd : w.d < text.length := (charAt_nonneg_iff ..).1 (of_decide_eq_true hok)
      simp only [WorkItem.equalPart, SortRun.pushPart_sa] at hp ⊢
      refine ⟨hp, by simp; omega, hd, fun i j h1 h2 h3 h4 => ?_⟩
      simp only at h1 h2 h3 h4
      refine agree_succ (hagree i j (by omega) (by omega) (by omega) (by omega)) ?_
      exact (hscan.equal i h1 (by omega)).trans (hscan.equal j h3 (by omega)).symm
    · rcases SortRun.mem_items_pushPart.1 hx with ⟨-, -, rfl⟩ | hx
      · simp [WorkItem.Apart, WorkItem.greaterPart, WorkItem.equalPart]
      · have := hwrest x hx
        simp only [WorkItem.Apart, WorkItem.equalPart] at this ⊢
        omega
    · have hok := of_decide_eq_true hok
      simp only [WorkItem.lesserPart, SortRun.pushPart_sa] at hp ⊢
      refine ⟨hp, by simp; omega, hw.depth, fun i j h1 h2 h3 h4 => ?_⟩
      simp only at h1 h2 h3 h4
      exact hagree i j (by omega) (by omega) (by omega) (by omega)
    · have hok := of_decide_eq_true hok
      rcases SortRun.mem_items_pushPart.1 hx with ⟨-, -, rfl⟩ | hx
      · simp only [WorkItem.Apart, WorkItem.lesserPart, WorkItem.equalPart]; omega
      · rcases SortRun.mem_items_pushPart.1 hx with ⟨-, -, rfl⟩ | hx
        · simp only [WorkItem.Apart, WorkItem.lesserPart, WorkItem.greaterPart]; omega
        · have := hwrest x hx
          simp only [WorkItem.Apart, WorkItem.lesserPart] at this ⊢
          omega

/-- Two rows of the popped item after the round: in order, or in one of the parts that were pushed. -/
theorem sortRound_orders_inside (h : r.ItemsInv text) (hr : r.items = w :: rest) {i j : Nat} (hij : i < j)
    (hi : w.lo ≤ i) (hj : j ≤ w.hi) :
    rotLe text ((sortRound text r).sa.getD i 0) ((sortRound text r).sa.getD j 0) = true ∨
      ∃ x ∈ (sortRound text r).items, x.lo ≤ i ∧ j ≤ x.hi := by
  obtain ⟨hscan, hend⟩ := h.partition_top hr
  have hagree := h.agree_after_partition hr hi (by omega : i ≤ w.hi) (by omega : w.lo ≤ j) hj
  have hmem := mem_items_sortRound_cons text hr
  rw [sortRound_cons_sa text hr]
  set c := partitionItem text r.sa w
  have hlt := hscan.lt_lt_i
  rcases lt_or_ge i c.lt with hi1 | hi1
  · have hil := hscan.less i hi hi1
    rcases lt_or_ge j c.lt with hj1 | hj1
    · exact .inr ⟨_, (hmem _).2 (.inl ⟨by omega, by omega, rfl⟩), hi, by simp only [WorkItem.lesserPart]; omega⟩
    · rcases le_or_gt j c.gt with hj2 | hj2
      · exact .inl (hagree.rotLe_of_charAt_lt (hil.trans_eq (hscan.equal j hj1 (by omega)).symm))
      · exact .inl (hagree.rotLe_of_charAt_lt (hil.trans (hscan.greater j hj2 hj)))
  · rcases le_or_gt i c.gt with hi2 | hi2
    · have hie := hscan.equal i hi1 (by omega)
      rcases le_or_gt j c.gt with hj2 | hj2
      · by_cases hv : 0 ≤ charAt text (r.sa.getD w.lo 0) w.d
        · exact .inr ⟨_, (hmem _).2 (.inr (.inl ⟨hv, by omega, rfl⟩)), hi1, hj2⟩
        · have hd : text.length ≤ w.d := Nat.not_lt.1 fun hd => hv ((charAt_nonneg_iff ..).2 hd)
          left
          rw [rotLe, hagree.rotation_eq hd, lexLe_refl]
      · exact .inl (hagree.rotLe_of_charAt_lt (hie.trans_lt (hscan.greater j hj2 hj)))
    · exact .inr ⟨_, (hmem _).2 (.inr (.inr (.inl ⟨by omega, rfl⟩))), hi2, hj⟩

theorem sortRound_keeps_orderedOutside (h : r.ItemsInv text) (ho : r.OrderedOutside text) :
    (sortRound text r).OrderedOutside text := by
  cases hr : r.items with
  | nil => rwa [sortRound_nil text hr]
  | cons w rest =>
    intro i j hij hj
    have hre := (h.partition_top hr).1.rearranged
    obtain ⟨hwrest, -⟩ := List.pairwise_cons.1 (hr ▸ h.apart)
    have hmem : ∀ x ∈ rest, x ∈ (sortRound text r).items := fun x hx =>
      (mem_items_sortRound_cons text hr x).2 (.inr (.inr (.inr hx)))
    by_cases hi_in : w.lo ≤ i ∧ i ≤ w.hi
    · by_cases hj_in : j ≤ w.hi
      · exact sortRound_orders_inside h hr hij hi_in.1 hj_in
      · obtain ⟨k, hk, hk', hik⟩ := hre.inside i hi_in.1 hi_in.2
        rw [sortRound_cons_sa text hr, hik, hre.outside j (by omega)]
        refine (ho k j (by omega) hj).imp_right ?_
        rintro ⟨x, hx, hxk, hxj⟩
        rcases List.mem_cons.1 (hr ▸ hx) with rfl | hx
        · omega
        · have := hwrest x hx; unfold WorkItem.Apart at this; omega
    · by_cases hj_in : w.lo ≤ j ∧ j ≤ w.hi
      · obtain ⟨k, hk, hk', hjk⟩ := hre.inside j hj_in.1 hj_in.2
        rw [sortRound_cons_sa text hr, hjk, hre.outside i (by omega)]
        refine (ho i k (by omega) (by have := (h.fits w (by simp [hr])).hi_lt; omega)).imp_right ?_
        rintro ⟨x, hx, hxi, hxk⟩
        rcases List.mem_cons.1 (hr ▸ hx) with rfl | hx
        · omega
        · have := hwrest x hx; unfold WorkItem.Apart at this; omega
      · rw [sortRound_cons_sa text hr, hre.outside i (by omega), hre.outside j (by omega)]
        refine (ho i j hij hj).imp_right ?_
        rintro ⟨x, hx, hxi, hxj⟩
        rcases List.mem_cons.1 (hr ▸ hx) with rfl | hx
        · omega
        · exact ⟨x, hmem x hx, hxi, hxj⟩

end Round

/-! ## The sort ends (41_css.md R132) -/

/-- A bound on the rounds a work item can still cause: one an entry and a depth. -/
def WorkItem.weight (text : List Byte) (w : WorkItem) : Nat := (w.hi + 1 - w.lo) * (text.length + 1 - w.d)

/-- A bound on the rounds still to come. -/
def SortRun.weight (text : List Byte) (r : SortRun) : Nat := (r.items.map (WorkItem.weight text)).sum

theorem SortRun.weight_pushPart (text : List Byte) (r : SortRun) (ok : Bool) (w : WorkItem) :
    (r.pushPart ok w).weight text = r.weight text + if ok = true ∧ w.lo < w.hi then w.weight text else 0 := by
  unfold SortRun.pushPart
  by_cases h : ok = true ∧ w.lo < w.hi
  · simp [h, SortRun.push, SortRun.weight, Nat.add_comm]
  · simp [h]

/-- Every round uses up weight: the pivot's class goes one character deeper. -/
theorem weight_sortRound_lt {text : List Byte} {r : SortRun} (h : r.ItemsInv text) (hr : r.items ≠ []) :
    (sortRound text r).weight text < r.weight text := by
  obtain ⟨w, rest, hr⟩ := List.exists_cons_of_ne_nil hr
  obtain ⟨hscan, hend⟩ := h.partition_top hr
  have hw := h.fits w (by simp [hr])
  have hlo := hscan.lo_le_lt
  have hlt := hscan.lt_lt_i
  have hgt := hscan.gt_le_hi
  have hwt : r.weight text = w.weight text + (r.afterPartition text w rest).weight text := by
    simp [SortRun.weight, hr, SortRun.afterPartition]
  rw [sortRound_cons text hr, hwt]
  simp only [SortRun.weight_pushPart, decide_eq_true_eq, true_and]
  set c := partitionItem text r.sa w
  obtain ⟨D, hD⟩ : ∃ D, text.length + 1 - w.d = D + 1 := ⟨text.length - w.d, by have := hw.depth; omega⟩
  have hgreater : (if (w.greaterPart c).lo < (w.greaterPart c).hi then (w.greaterPart c).weight text else 0) ≤
      (w.hi - c.gt) * (D + 1) := by
    split_ifs
    · simp only [WorkItem.weight, WorkItem.greaterPart, hD]; apply le_of_eq; congr 1; omega
    · exact Nat.zero_le _
  have hequal : (if 0 ≤ charAt text (r.sa.getD w.lo 0) w.d ∧ (w.equalPart c).lo < (w.equalPart c).hi then
      (w.equalPart c).weight text else 0) ≤ (c.gt + 1 - c.lt) * D := by
    split_ifs
    · simp only [WorkItem.weight, WorkItem.equalPart]; apply le_of_eq; congr 1; omega
    · exact Nat.zero_le _
  have hlesser : (if w.lo < c.lt ∧ (w.lesserPart c).lo < (w.lesserPart c).hi then (w.lesserPart c).weight text else 0) ≤
      (c.lt - w.lo) * (D + 1) := by
    split_ifs
    · simp only [WorkItem.weight, WorkItem.lesserPart, hD]; apply le_of_eq; congr 1; omega
    · exact Nat.zero_le _
  have hall : w.weight text = (w.hi - c.gt) * (D + 1) + (c.gt + 1 - c.lt) * D + (c.gt + 1 - c.lt) + (c.lt - w.lo) * (D + 1) := by
    rw [WorkItem.weight, hD, show w.hi + 1 - w.lo = (w.hi - c.gt) + (c.gt + 1 - c.lt) + (c.lt - w.lo) by omega]
    ring
  omega

theorem items_eq_nil_of_weight {text : List Byte} {r : SortRun} (h : r.ItemsInv text) (hw : r.weight text = 0) :
    r.items = [] := by
  by_contra hr
  exact absurd (weight_sortRound_lt h hr) (by omega)

theorem sortRounds_keeps_itemsInv {text : List Byte} (k : Nat) {r : SortRun} (h : r.ItemsInv text) :
    (sortRounds text k r).ItemsInv text := by
  induction k generalizing r with
  | zero => exact h
  | succ k ih =>
    unfold sortRounds
    split
    · exact h
    · exact ih (sortRound_keeps_itemsInv h)

theorem sortRounds_keeps_orderedOutside {text : List Byte} (k : Nat) {r : SortRun} (h : r.ItemsInv text)
    (ho : r.OrderedOutside text) : (sortRounds text k r).OrderedOutside text := by
  induction k generalizing r with
  | zero => exact ho
  | succ k ih =>
    unfold sortRounds
    split
    · exact ho
    · exact ih (sortRound_keeps_itemsInv h) (sortRound_keeps_orderedOutside h ho)

/-- As many rounds as the weight empty the stack. -/
theorem items_sortRounds_eq_nil {text : List Byte} {k : Nat} {r : SortRun} (h : r.ItemsInv text) (hk : r.weight text ≤ k) :
    (sortRounds text k r).items = [] := by
  induction k generalizing r with
  | zero => exact items_eq_nil_of_weight h (Nat.le_zero.1 hk)
  | succ k ih =>
    unfold sortRounds
    split
    · next hr => exact hr
    · next w rest hr =>
      have := weight_sortRound_lt h (by simp [hr])
      exact ih (sortRound_keeps_itemsInv h) (by omega)

/-! ## The whole sort -/

theorem sortStart_itemsInv (text : List Byte) (mem : Memory StackEntry) (cur : Cursors) :
    (sortStart text mem cur).ItemsInv text := by
  refine SortRun.ItemsInv.pushPart ⟨.refl _, by simp, by simp⟩ (fun _ hw => ?_) (by simp)
  simp only at hw
  exact ⟨hw, by simp; omega, by simp, fun i j _ _ _ _ e he => absurd he (by simp)⟩

theorem sortStart_orderedOutside (text : List Byte) (mem : Memory StackEntry) (cur : Cursors) :
    (sortStart text mem cur).OrderedOutside text := by
  intro i j hij hj
  exact .inr ⟨_, SortRun.mem_items_pushPart.2 (.inl ⟨rfl, by simp; omega, rfl⟩), by simp, by simp; omega⟩

theorem weight_sortStart_le (text : List Byte) (mem : Memory StackEntry) (cur : Cursors) :
    (sortStart text mem cur).weight text ≤ roundBound text.length := by
  rw [sortStart, SortRun.weight_pushPart]
  split_ifs with h
  · simp only [true_and] at h
    simp only [SortRun.weight, WorkItem.weight, List.map_nil, List.sum_nil, roundBound, Nat.sub_zero, Nat.zero_add]
    rw [Nat.sub_add_cancel (by omega)]
    omega
  · simp [SortRun.weight]

/-- RefSort ends with an empty stack (41_css.md R132, R133). -/
theorem items_runSort (text : List Byte) (mem : Memory StackEntry) (cur : Cursors) : (runSort text mem cur).items = [] :=
  items_sortRounds_eq_nil (sortStart_itemsInv text mem cur) (weight_sortStart_le text mem cur)

/-- RefSort's order is in Sorted(text) (41_css.md R133). -/
theorem refSort_sorted (text : List Byte) : Sorted text (refSort text) := by
  have hperm : (refSort text).Perm (List.range text.length) :=
    (sortRounds_keeps_itemsInv _ (sortStart_itemsInv text [] Cursors.reset)).perm
  refine ⟨hperm, List.pairwise_iff_getElem.2 fun i j hi hj hij => ?_⟩
  have hlen : (refSort text).length = text.length := length_refSort text
  have ho := sortRounds_keeps_orderedOutside (roundBound text.length) (sortStart_itemsInv text [] Cursors.reset)
    (sortStart_orderedOutside text [] Cursors.reset) i j hij (hlen ▸ hj)
  rcases ho with ho | ⟨w, hw, -⟩
  · change rotLe text ((refSort text).getD i 0) ((refSort text).getD j 0) = true at ho
    rwa [List.getD_eq_getElem _ _ hi, List.getD_eq_getElem _ _ hj] at ho
  · exact absurd hw (by change w ∉ (runSort text [] Cursors.reset).items; simp [items_runSort])

/-- TIEBREAK's order is in Sorted(text), whatever its table holds (41_css.md R123). -/
theorem suffixOrder_sorted (s : State) (text : List Byte) : Sorted text (s.suffixOrder text) := by
  rcases chooseOrder_cases s.tieBreak text (refSort text) with h | h
  · exact h
  · rw [State.suffixOrder, h]; exact refSort_sorted text

end Sys2Proof.Machine

namespace Sys2Proof.Machine

/-! ## Count and running sum (42_bwt.md R156, R157) -/

/-- How many bytes of T are less than c. -/
def smaller (column : List Byte) (c : Nat) : Nat := column.countP fun b => b.toNat < c

theorem smaller_succ (column : List Byte) (c : Nat) :
    smaller column (c + 1) = smaller column c + column.countP fun b => b.toNat = c := by
  unfold smaller
  induction column with
  | nil => rfl
  | cons b column ih =>
    simp only [List.countP_cons, ih, decide_eq_true_eq]
    split_ifs <;> omega

theorem countP_toNat_eq (column : List Byte) (c : Byte) :
    (column.countP fun b => b.toNat = c.toNat) = column.count c :=
  List.countP_congr fun b _ => by simp [BitVec.toNat_inj]

theorem smaller_le_smaller (column : List Byte) {c d : Nat} (h : c ≤ d) : smaller column c ≤ smaller column d :=
  List.countP_mono_left fun b _ hb => by simp only [decide_eq_true_eq] at hb ⊢; omega

/-- Counting adds to each entry above 0 the number of bytes that name it. -/
theorem getD_foldl_modify (column : List Byte) (acc : List Nat) (k : Nat) (hk : k < acc.length) :
    (column.foldl (fun count c => count.modify (c.toNat + 1) (· + 1)) acc).getD k 0 =
      acc.getD k 0 + column.countP fun b => b.toNat + 1 = k := by
  induction column generalizing acc with
  | nil => simp
  | cons b column ih =>
    rw [List.foldl_cons, ih _ (by simpa using hk), List.countP_cons]
    simp only [List.getD_eq_getElem?_getD, List.getElem?_modify, List.getElem?_eq_getElem hk, decide_eq_true_eq]
    split_ifs
    · simp; omega
    · simp

theorem getD_countPhase_zero (column : List Byte) : (countPhase column).getD 0 0 = 0 := by
  rw [countPhase, getD_foldl_modify _ _ _ (by simp)]
  simp

theorem getD_countPhase_succ (column : List Byte) {c : Nat} (hc : c < 256) :
    (countPhase column).getD (c + 1) 0 = column.countP fun b => b.toNat = c := by
  rw [countPhase, getD_foldl_modify _ _ _ (by simp; omega)]
  simp

theorem getD_runningSum (acc : Nat) (count : List Nat) {k : Nat} (hk : k < count.length) :
    (runningSum acc count).getD k 0 = acc + (count.take (k + 1)).sum := by
  induction count generalizing acc k with
  | nil => simp at hk
  | cons x rest ih =>
    cases k with
    | zero => simp [runningSum]
    | succ k =>
      have := ih (acc + x) (k := k) (by simpa using hk)
      simp only [runningSum, List.getD_cons_succ, this, List.take_succ_cons, List.sum_cons]
      omega

theorem sum_take_countPhase (column : List Byte) {c : Nat} (hc : c ≤ 256) :
    ((countPhase column).take (c + 1)).sum = smaller column c := by
  have hlen : (countPhase column).length = 257 := length_countPhase column
  induction c with
  | zero =>
    have h0 := getD_countPhase_zero column
    rw [List.getD_eq_getElem _ _ (by omega)] at h0
    rw [List.sum_take_succ _ _ (by omega), h0]
    simp [smaller]
  | succ c ih =>
    have hs := getD_countPhase_succ column (by omega : c < 256)
    rw [List.getD_eq_getElem _ _ (by omega)] at hs
    rw [List.sum_take_succ _ _ (by omega), ih (by omega), hs, smaller_succ]

/-- After the second phase COUNT[c] is the number of bytes of T less than c (42_bwt.md R157). -/
theorem getD_prefixSumPhase (column : List Byte) {c : Nat} (hc : c ≤ 256) :
    (prefixSumPhase (countPhase column)).getD c 0 = smaller column c := by
  rw [prefixSumPhase, getD_runningSum _ _ (by rw [length_countPhase]; exact Nat.lt_succ_of_le hc), Nat.zero_add,
    sum_take_countPhase column hc]

/-! ## The place of each position of T in the stable order -/

/-- The row that T[i] gets: after every lesser byte, and after every equal byte to its left. -/
def rank (column : List Byte) (i : Nat) : Nat :=
  smaller column (symbolAt column i).toNat + (column.take i).count (symbolAt column i)

/-- Position i of T comes before position j in the stable order. -/
def StableBefore (column : List Byte) (i j : Nat) : Prop :=
  (symbolAt column i).toNat < (symbolAt column j).toNat ∨ (symbolAt column i = symbolAt column j ∧ i < j)

theorem stableBefore_trichotomy (column : List Byte) (i j : Nat) :
    StableBefore column i j ∨ i = j ∨ StableBefore column j i := by
  unfold StableBefore
  rcases lt_trichotomy (symbolAt column i).toNat (symbolAt column j).toNat with h | h | h
  · exact .inl (.inl h)
  · have h := BitVec.toNat_inj.1 h
    rcases lt_trichotomy i j with hij | hij | hij
    · exact .inl (.inr ⟨h, hij⟩)
    · exact .inr (.inl hij)
    · exact .inr (.inr (.inr ⟨h.symm, hij⟩))
  · exact .inr (.inr (.inl h))

/-- To the left of position j there is one more T[i] than to the left of position i, for i < j. -/
theorem count_take_lt {column : List Byte} {i j : Nat} (hij : i < j) (hi : i < column.length) :
    (column.take i).count (symbolAt column i) < (column.take j).count (symbolAt column i) := by
  have hsub : (column.take (i + 1)).Sublist (column.take j) := List.take_sublist_take_left hij
  have hcount := hsub.count_le (symbolAt column i)
  have hsym : column[i] = symbolAt column i := by simp [symbolAt, hi]
  rw [List.take_succ_eq_append_getElem hi, hsym, List.count_append, List.count_singleton_self] at hcount
  omega

theorem rank_lt_smaller_succ {column : List Byte} {i : Nat} (hi : i < column.length) :
    rank column i < smaller column ((symbolAt column i).toNat + 1) := by
  have hcount := count_take_lt hi hi
  rw [List.take_length] at hcount
  rw [smaller_succ, countP_toNat_eq, rank]
  omega

theorem rank_lt_length {column : List Byte} {i : Nat} (hi : i < column.length) : rank column i < column.length :=
  (rank_lt_smaller_succ hi).trans_le List.countP_le_length

/-- Ranks rise along the stable order. -/
theorem rank_lt_rank {column : List Byte} {i j : Nat} (hi : i < column.length) (h : StableBefore column i j) :
    rank column i < rank column j := by
  rcases h with h | ⟨hsym, hij⟩
  · calc rank column i < smaller column ((symbolAt column i).toNat + 1) := rank_lt_smaller_succ hi
      _ ≤ smaller column (symbolAt column j).toNat := smaller_le_smaller column h
      _ ≤ rank column j := Nat.le_add_right ..
  · have := count_take_lt hij hi
    rw [rank, rank, ← hsym]
    omega

theorem rank_injOn {column : List Byte} {i j : Nat} (hi : i < column.length) (hj : j < column.length)
    (h : rank column i = rank column j) : i = j := by
  rcases stableBefore_trichotomy column i j with hb | rfl | hb
  · have := rank_lt_rank hi hb; omega
  · rfl
  · have := rank_lt_rank hj hb; omega

theorem stableBefore_of_rank_lt {column : List Byte} {i j : Nat} (hj : j < column.length)
    (h : rank column i < rank column j) : StableBefore column i j := by
  rcases stableBefore_trichotomy column i j with hb | rfl | hb
  · exact hb
  · omega
  · have := rank_lt_rank hj hb; omega

/-- Every row is the rank of one position. -/
theorem rank_perm (column : List Byte) :
    ((List.range column.length).map (rank column)).Perm (List.range column.length) := by
  have hnodup : ((List.range column.length).map (rank column)).Nodup :=
    List.nodup_range.map_on fun i hi j hj h => rank_injOn (List.mem_range.1 hi) (List.mem_range.1 hj) h
  refine (List.subperm_of_subset hnodup fun r hr => ?_).perm_of_length_le (by simp)
  obtain ⟨i, hi, rfl⟩ := List.mem_map.1 hr
  exact List.mem_range.2 (rank_lt_length (List.mem_range.1 hi))

theorem exists_rank_eq {column : List Byte} {r : Nat} (hr : r < column.length) :
    ∃ i < column.length, rank column i = r := by
  simpa using (rank_perm column).mem_iff.2 (List.mem_range.2 hr)

/-! ## The scatter (42_bwt.md R158) -/

/-- What holds of the tables when the scatter has placed the positions of `done`, the first part of T. -/
structure ScatterInv (column done : List Byte) (t : Tables) : Prop where
  count_length : t.count.length = Config.radix + 1
  next_length : t.next.length = column.length
  sorted_length : t.sorted.length = column.length
  count : ∀ c : Byte, t.count.getD c.toNat 0 = smaller column c.toNat + done.count c
  next : ∀ i < done.length, t.next[rank column i]? = some i
  sorted : ∀ i < done.length, t.sorted[rank column i]? = some (symbolAt column i)

theorem scatterStep_keeps_scatterInv {column done rest : List Byte} {c : Byte} {t : Tables}
    (hcol : column = done ++ c :: rest) (h : ScatterInv column done t) :
    ScatterInv column (done ++ [c]) (scatterStep t done.length c) := by
  have hlt : done.length < column.length := by simp [hcol]
  have hsym : symbolAt column done.length = c := by simp [hcol, symbolAt]
  have htake : column.take done.length = done := by simp [hcol]
  have hslot : t.count.getD c.toNat 0 = rank column done.length := by
    rw [h.count c, rank, hsym, htake]
  have hrank : rank column done.length < column.length := rank_lt_length hlt
  have hne : ∀ i < done.length, rank column done.length ≠ rank column i := fun i hi he =>
    absurd (rank_injOn hlt (by omega) he) (by omega)
  refine ⟨by simp [scatterStep, h.count_length], by simp [scatterStep, h.next_length],
    by simp [scatterStep, h.sorted_length], fun d => ?_, fun i hi => ?_, fun i hi => ?_⟩
  · have hc : c.toNat < t.count.length := by rw [h.count_length]; exact c.isLt.trans_le (by decide)
    simp only [scatterStep, hslot]
    by_cases hd : d = c
    · subst hd
      rw [List.getD_eq_getElem?_getD, List.getElem?_set_self hc, Option.getD_some, ← hslot, h.count d,
        List.count_append, List.count_singleton_self, Nat.add_assoc]
    · have hdc : c.toNat ≠ d.toNat := fun he => hd (BitVec.toNat_inj.1 he).symm
      have := h.count d
      simp only [List.getD_eq_getElem?_getD] at this
      simp [hdc, this, Ne.symm hd]
  · simp only [scatterStep, hslot]
    rcases Nat.lt_or_eq_of_le (Nat.le_of_lt_succ (by simpa using hi)) with hi | rfl
    · rw [List.getElem?_set_ne (hne i hi), h.next i hi]
    · rw [List.getElem?_set_self (by rw [h.next_length]; exact hrank)]
  · simp only [scatterStep, hslot]
    rcases Nat.lt_or_eq_of_le (Nat.le_of_lt_succ (by simpa using hi)) with hi | rfl
    · rw [List.getElem?_set_ne (hne i hi), h.sorted i hi]
    · rw [List.getElem?_set_self (by rw [h.sorted_length]; exact hrank), hsym]

theorem scatterFrom_keeps_scatterInv {column done rest : List Byte} {t : Tables} (hcol : column = done ++ rest)
    (h : ScatterInv column done t) : ScatterInv column column (scatterFrom t done.length rest) := by
  induction rest generalizing done t with
  | nil =>
    rw [List.append_nil] at hcol
    rw [hcol] at h ⊢
    exact h
  | cons c rest ih =>
    have := ih (done := done ++ [c]) (by simp [hcol]) (scatterStep_keeps_scatterInv hcol h)
    rwa [List.length_append, List.length_singleton] at this

/-- The tables of the inverse place position i of T at its rank (42_bwt.md R156 to R158). -/
theorem inverseTables_scatterInv (column : List Byte) : ScatterInv column column (inverseTables column) := by
  refine scatterFrom_keeps_scatterInv (done := []) rfl ⟨?_, by simp, by simp, fun c => ?_, by simp, by simp⟩
  · simp only [prefixSumPhase, length_runningSum, length_countPhase]
  · simpa using getD_prefixSumPhase column c.isLt.le

/-- NEXT is a permutation of the rows (42_bwt.md R163). -/
theorem inverseTables_next_perm (column : List Byte) :
    (inverseTables column).next.Perm (List.range column.length) := by
  have h := inverseTables_scatterInv column
  have hself : (inverseTables column).next = (List.range column.length).map ((inverseTables column).next.getD · 0) := by
    rw [← h.next_length]
    exact List.ext_getElem (by simp) fun k hk _ => by simp [hk]
  have hid : ((List.range column.length).map (rank column)).map ((inverseTables column).next.getD · 0) =
      List.range column.length := by
    rw [List.map_map]
    refine (List.map_congr_left fun i hi => ?_).trans (List.map_id _)
    simp [h.next i (List.mem_range.1 hi)]
  rw [hself]
  exact ((rank_perm column).map _).symm.trans (.of_eq hid)

/-- Row r of the tables: NEXT[r] is the position of rank r, and SORTED[r] its byte. -/
theorem inverseTables_row {column : List Byte} {r : Nat} (hr : r < column.length) :
    (inverseTables column).next.getD r 0 < column.length ∧ rank column ((inverseTables column).next.getD r 0) = r ∧
      (inverseTables column).sorted.getD r 0 = symbolAt column ((inverseTables column).next.getD r 0) := by
  obtain ⟨i, hi, rfl⟩ := exists_rank_eq hr
  have h := inverseTables_scatterInv column
  have hnext : (inverseTables column).next.getD (rank column i) 0 = i := by simp [h.next i hi]
  rw [hnext]
  exact ⟨hi, rfl, by simp [h.sorted i hi]⟩

/-- NEXT lists the positions of T in the stable order (42_bwt.md R163). -/
theorem inverseTables_next_pairwise (column : List Byte) :
    (inverseTables column).next.Pairwise (StableBefore column) := by
  refine List.pairwise_iff_getElem.2 fun r q hr hq hrq => ?_
  have hlen := (inverseTables_scatterInv column).next_length
  obtain ⟨-, hrank_r, -⟩ := inverseTables_row (column := column) (hlen ▸ hr)
  obtain ⟨hlt, hrank_q, -⟩ := inverseTables_row (column := column) (hlen ▸ hq)
  rw [List.getD_eq_getElem _ _ hr] at hrank_r
  rw [List.getD_eq_getElem _ _ hq] at hrank_q hlt
  exact stableBefore_of_rank_lt hlt (by omega)

/-! ## Cyclic stretches of the text -/

/-- The m characters of the text from offset a on, around the end. -/
def cyclic (text : List Byte) (m a : Nat) : List Byte :=
  (List.range m).map fun d => symbolAt text ((a + d) % text.length)

theorem rotation_eq_cyclic (text : List Byte) (a : Nat) : rotation text a = cyclic text text.length a := rfl

theorem cyclic_succ (text : List Byte) (m a : Nat) :
    cyclic text (m + 1) a = symbolAt text (a % text.length) :: cyclic text m (a + 1) := by
  simp [cyclic, List.range_succ_eq_map, Function.comp_def, Nat.add_comm, Nat.add_left_comm]

theorem cyclic_succ_eq_append (text : List Byte) (m a : Nat) :
    cyclic text (m + 1) a = cyclic text m a ++ [symbolAt text ((a + m) % text.length)] := by
  simp [cyclic, List.range_succ]

theorem cyclic_add_length (text : List Byte) (m a : Nat) : cyclic text m (a + text.length) = cyclic text m a := by
  simp [cyclic, Nat.add_right_comm a text.length]

theorem rotation_zero (text : List Byte) : rotation text 0 = text :=
  List.ext_getElem (by simp) fun k hk hk' => by
    rw [length_rotation] at hk
    simp [rotation, Nat.mod_eq_of_lt hk, symbolAt, hk]

/-- A character and the rotation after it, as one stretch of n + 1 characters. -/
theorem cons_rotation (text : List Byte) (a : Nat) :
    symbolAt text (a % text.length) :: rotation text (a + 1) = cyclic text (text.length + 1) a :=
  (cyclic_succ text _ a).symm

theorem predecessor_cons_rotation {text : List Byte} (hn : text ≠ []) (a : Nat) :
    predecessor text a :: rotation text a = cyclic text (text.length + 1) (a + text.length - 1) := by
  have hpos : 0 < text.length := List.length_pos_iff.2 hn
  have hrot : rotation text (a + text.length - 1 + 1) = rotation text a := by
    rw [Nat.sub_add_cancel (by omega)]
    exact cyclic_add_length text _ a
  rw [← cons_rotation, hrot, predecessor]

/-- Equal rotations have equal n + 1 characters: the last one is the first again. -/
theorem cyclic_succ_eq_of_rotation_eq {text : List Byte} {a b : Nat} (h : rotation text a = rotation text b) :
    cyclic text (text.length + 1) a = cyclic text (text.length + 1) b := by
  rcases Nat.eq_zero_or_pos text.length with hn | hn
  · simp [cyclic, symbolAt, List.length_eq_zero_iff.1 hn]
  · have h0 := (rotation_eq_iff text a b).1 h 0 hn
    rw [cyclic_succ_eq_append, cyclic_succ_eq_append, ← rotation_eq_cyclic, ← rotation_eq_cyclic, h]
    simpa using h0

theorem lexLe_append_singleton {xs ys : List Byte} {x y : Byte} (hlen : xs.length = ys.length)
    (h : lexLe xs ys = true) (hxy : xs = ys → x = y) : lexLe (xs ++ [x]) (ys ++ [y]) = true := by
  induction xs generalizing ys with
  | nil =>
    cases List.length_eq_zero_iff.1 hlen.symm
    simp [hxy rfl]
  | cons a xs ih =>
    cases ys with
    | nil => cases hlen
    | cons b ys =>
      rw [List.cons_append, List.cons_append, lexLe_cons_iff]
      refine ((lexLe_cons_iff ..).1 h).imp_right ?_
      rintro ⟨rfl, hle⟩
      exact ⟨rfl, ih (by simpa using hlen) hle fun he => hxy (by rw [he])⟩

/-- Rotations in order stay in order with their next character. -/
theorem lexLe_cyclic_succ {text : List Byte} {a b : Nat} (h : rotLe text a b = true) :
    lexLe (cyclic text (text.length + 1) a) (cyclic text (text.length + 1) b) = true := by
  by_cases he : rotation text a = rotation text b
  · rw [cyclic_succ_eq_of_rotation_eq he, lexLe_refl]
  · rw [cyclic_succ_eq_append, cyclic_succ_eq_append]
    exact lexLe_append_singleton (by simp [cyclic]) h fun h' => absurd h' he

/-- Over all offsets, the stretch before each offset is as good as the stretch at it. -/
theorem map_cyclic_predecessor_perm (text : List Byte) (m : Nat) :
    ((List.range text.length).map fun a => cyclic text m (a + text.length - 1)).Perm
      ((List.range text.length).map (cyclic text m)) := by
  cases hn : text.length with
  | zero => simp
  | succ k =>
    have hshift : ∀ a, cyclic text m (a + 1 + (k + 1) - 1) = cyclic text m a := fun a => by
      rw [show a + 1 + (k + 1) - 1 = a + text.length by omega, cyclic_add_length]
    rw [List.range_succ_eq_map, List.map_cons, List.map_map, ← List.range_succ_eq_map, List.range_succ, List.map_append]
    simp only [Function.comp_def, Nat.succ_eq_add_one, hshift, List.map_cons, List.map_nil]
    rw [show 0 + (k + 1) - 1 = k by omega]
    exact (List.perm_append_singleton _ _).symm

/-! ## The stable order of the last column is the sorted table, one row on (42_bwt.md R160) -/

section RoundTrip

variable {text : List Byte} {order : List Nat}

theorem Sorted.length_eq (h : Sorted text order) : order.length = text.length := by
  simpa using h.1.length_eq

theorem length_lastColumn (h : Sorted text order) : (lastColumn text order).length = text.length := by
  rw [lastColumn, List.length_map, h.length_eq]

theorem symbolAt_lastColumn {i : Nat} (hi : i < order.length) :
    symbolAt (lastColumn text order) i = predecessor text (order.getD i 0) := by
  simp [symbolAt, lastColumn, hi]

/-- Position i of T with the rotation of row i: the n + 1 characters from the one before that row's offset. -/
def prefixedRow (text : List Byte) (order : List Nat) (i : Nat) : List Byte :=
  symbolAt (lastColumn text order) i :: rotation text (order.getD i 0)

/-- Along NEXT the prefixed rows do not descend, because the counting sort is stable. -/
theorem pairwise_prefixedRow_next (h : Sorted text order) :
    ((inverseTables (lastColumn text order)).next.map (prefixedRow text order)).Pairwise
      (fun xs ys => lexLe xs ys = true) := by
  refine List.pairwise_map.2 ((inverseTables_next_pairwise _).imp_of_mem fun {i j} _ hj hij => ?_)
  refine (lexLe_cons_iff ..).2 (hij.imp_right ?_)
  rintro ⟨hsym, hlt⟩
  have hj' : j < order.length := by
    rw [h.length_eq, ← length_lastColumn h]
    exact List.mem_range.1 ((inverseTables_next_perm _).mem_iff.1 hj)
  have := List.pairwise_iff_getElem.1 h.2 i j (hlt.trans hj') hj' hlt
  rw [List.getD_eq_getElem _ _ hj', List.getD_eq_getElem _ _ (hlt.trans hj')]
  exact ⟨hsym, this⟩

theorem map_prefixedRow_next_perm (h : Sorted text order) (hn : text ≠ []) :
    ((inverseTables (lastColumn text order)).next.map (prefixedRow text order)).Perm
      (order.map (cyclic text (text.length + 1))) := by
  have hrows : (List.range order.length).map (prefixedRow text order) =
      order.map fun a => cyclic text (text.length + 1) (a + text.length - 1) := by
    refine List.ext_getElem (by simp) fun i hi hi' => ?_
    rw [List.length_map] at hi'
    simp only [List.getElem_map, List.getElem_range, prefixedRow, symbolAt_lastColumn hi']
    rw [predecessor_cons_rotation hn, List.getD_eq_getElem _ _ hi']
  have hnext := inverseTables_next_perm (lastColumn text order)
  rw [length_lastColumn h, ← h.length_eq] at hnext
  refine (hnext.map (prefixedRow text order)).trans ?_
  rw [hrows]
  exact ((h.1.map _).trans (map_cyclic_predecessor_perm text _)).trans (h.1.map _).symm

/-- The key of the inverse: two sorted lists of the same strings are the same list, so row r and the prefixed row NEXT[r] are
the same n + 1 characters, ties or no ties. -/
theorem map_prefixedRow_next (h : Sorted text order) (hn : text ≠ []) :
    (inverseTables (lastColumn text order)).next.map (prefixedRow text order) =
      order.map (cyclic text (text.length + 1)) :=
  List.Perm.eq_of_pairwise (fun _ _ _ _ => lexLe_antisymm) (pairwise_prefixedRow_next h)
    (List.pairwise_map.2 (h.2.imp lexLe_cyclic_succ)) (map_prefixedRow_next_perm h hn)

/-- The prefixed row NEXT[r] is row r with its next character. -/
theorem prefixedRow_next (h : Sorted text order) {row : Nat} (hrow : row < text.length) :
    prefixedRow text order ((inverseTables (lastColumn text order)).next.getD row 0) =
      cyclic text (text.length + 1) (order.getD row 0) := by
  have hn : text ≠ [] := List.ne_nil_of_length_pos (by omega)
  have hnext : row < (inverseTables (lastColumn text order)).next.length := by
    rwa [(inverseTables_scatterInv _).next_length, length_lastColumn h]
  have hord : row < order.length := h.length_eq ▸ hrow
  rw [List.getD_eq_getElem _ _ hnext, List.getD_eq_getElem _ _ hord]
  calc prefixedRow text order _ = (List.map (prefixedRow text order) _)[row]'(by simpa using hnext) :=
        (List.getElem_map ..).symm
    _ = (order.map (cyclic text (text.length + 1)))[row]'(by simpa using hord) :=
        List.getElem_of_eq (map_prefixedRow_next h hn) _
    _ = cyclic text (text.length + 1) order[row] := List.getElem_map ..

/-- One move of the walk: SORTED[r] is the first character of row r, and row NEXT[r] holds the rotation one character on. -/
theorem walk_move (h : Sorted text order) {row : Nat} (hrow : row < text.length) :
    (inverseTables (lastColumn text order)).sorted.getD row 0 = symbolAt text (order.getD row 0 % text.length) ∧
      (inverseTables (lastColumn text order)).next.getD row 0 < text.length ∧
      rotation text (order.getD ((inverseTables (lastColumn text order)).next.getD row 0) 0) =
        rotation text (order.getD row 0 + 1) := by
  have hcol := length_lastColumn h
  obtain ⟨hnext, -, hsorted⟩ := inverseTables_row (column := lastColumn text order) (hcol ▸ hrow)
  obtain ⟨hhead, htail⟩ := List.cons.inj ((prefixedRow_next h hrow).trans (cons_rotation text _).symm)
  exact ⟨hsorted.trans hhead, hcol ▸ hnext, htail⟩

/-- The walk from a row that holds the rotation at offset a reads the text from a on (42_bwt.md R159, R160). -/
theorem walk_eq_cyclic (h : Sorted text order) (m : Nat) {row a : Nat} (hrow : row < text.length)
    (ha : rotation text (order.getD row 0) = rotation text a) :
    (walk (inverseTables (lastColumn text order)) m row).1 = cyclic text m a := by
  induction m generalizing row a with
  | zero => rfl
  | succ m ih =>
    obtain ⟨hsorted, hnext, hrot⟩ := walk_move h hrow
    have hstretch := cyclic_succ_eq_of_rotation_eq ha
    rw [← cons_rotation, ← cons_rotation] at hstretch
    obtain ⟨hhead, htail⟩ := List.cons.inj hstretch
    rw [cyclic_succ, walk, hsorted, hhead, ih hnext (hrot.trans htail)]

/-- The inverse gives the text from any row that holds a rotation equal to it (42_bwt.md R161). -/
theorem inverseText_lastColumn (h : Sorted text order) {row a : Nat} (hrow : order[row]? = some a)
    (ha : rotation text a = text) : inverseText row (lastColumn text order) = text := by
  obtain ⟨hlt, hget⟩ := List.getElem?_eq_some_iff.1 hrow
  rw [inverseText, length_lastColumn h,
    walk_eq_cyclic h _ (a := 0) (h.length_eq ▸ hlt) (by rw [List.getD_eq_getElem _ _ hlt, hget, ha, rotation_zero]),
    ← rotation_eq_cyclic, rotation_zero]

/-- Row `first` holds offset 0 (42_bwt.md R151). -/
theorem getElem?_firstRow (h : Sorted text order) (hn : text ≠ []) : order[firstRow order]? = some 0 := by
  have hmem : 0 ∈ order := h.1.mem_iff.2 (List.mem_range.2 (List.length_pos_iff.2 hn))
  rw [firstRow, List.getElem?_eq_getElem (List.idxOf_lt_length_of_mem hmem), List.getElem_idxOf]

theorem firstRow_lt (h : Sorted text order) (hn : text ≠ []) : firstRow order < text.length :=
  h.length_eq ▸ (List.getElem?_eq_some_iff.1 (getElem?_firstRow h hn)).1

end RoundTrip

/-- The four bytes of a word, read big-endian, are the word. -/
theorem be32_be32Bytes (w : Word) : be32 (be32Bytes w) = w.toNat := by
  have := w.isLt
  simp only [be32, be32Bytes, List.foldl_cons, List.foldl_nil, BitVec.extractLsb'_toNat, Nat.shiftRight_eq_div_pow]
  omega

/-! ## The recency list (43_mtf.md R189, R191) -/

theorem mem_of_perm_identityList {list : List Byte} (h : list.Perm identityList) (c : Byte) : c ∈ list := by
  refine h.mem_iff.2 (List.mem_map.2 ⟨c.toNat, List.mem_range.2 c.isLt, ?_⟩)
  simp

theorem idxOf_lt_of_perm_identityList {list : List Byte} (h : list.Perm identityList) (c : Byte) :
    list.idxOf c < 256 := by
  have := List.idxOf_lt_length_of_mem (mem_of_perm_identityList h c)
  rwa [h.length_eq, identityList, List.length_map, List.length_range] at this

theorem getElem?_idxOf_of_perm_identityList {list : List Byte} (h : list.Perm identityList) (c : Byte) :
    list[list.idxOf c]? = some c := by
  rw [List.getElem?_eq_getElem (List.idxOf_lt_length_of_mem (mem_of_perm_identityList h c)), List.getElem_idxOf]

theorem encStep_perm {list : List Byte} (h : list.Perm identityList) (c : Byte) :
    (encStep c list).2.Perm identityList :=
  (moveToFront_perm (getElem?_idxOf_of_perm_identityList h c)).trans h

/-- decstep undoes encstep and leaves the same list. -/
theorem decStep_encStep {list : List Byte} (h : list.Perm identityList) (c : Byte) :
    decStep (encStep c list).1 list = (c, (encStep c list).2) := by
  simp [decStep, encStep, getElem?_idxOf_of_perm_identityList h c]

/-- Decoding undoes encoding, from any list of the 256 symbols. -/
theorem decodeStream_encodeStream {list : List Byte} (h : list.Perm identityList) (input : List Byte) :
    decodeStream list (encodeStream list input).1 = (input, (encodeStream list input).2) := by
  induction input generalizing list with
  | nil => rfl
  | cons c rest ih =>
    have hidx : (BitVec.ofNat 8 (encStep c list).1).toNat = (encStep c list).1 :=
      (BitVec.toNat_ofNat ..).trans (Nat.mod_eq_of_lt (idxOf_lt_of_perm_identityList h c))
    simp only [encodeStream, decodeStream, hidx, decStep_encStep h c, ih (encStep_perm h c)]

end Sys2Proof.Machine

namespace Sys2Proof.Machine

/-! ## Script lines -/

theorem decode_encode (i : Instr) : decode (encode i) = .instr i := by cases i <;> rfl

@[simp] theorem andThen_next (s : State) (k : State → Host.Outcome State Fault Refusal) : andThen (.next s) k = k s := rfl

theorem happen_host {m : HostMove} {s : State} (hm : m.wf s.bcap = true) : happen (.host m) s = .next (s.perform m) :=
  if_pos hm

theorem happen_sequencer {s : State} (hb : s.busy = true) : happen .sequencer s = complete s := if_pos hb

/-- The state in which a command line's command completes: the operand written, the command issued, and STATUS read once by
WAIT, which found the block busy (30_encoding.md R98, R99). -/
def State.commandIssued (s : State) (i : Instr) (v : Word) : State :=
  let u := ({ s with arg := v, argv := true } : State).issue (encode i)
  u.reply (.word u.status)

theorem State.commandIssued_operand (s : State) (i : Instr) (v : Word) :
    (s.commandIssued i v).operand = v.toNat := rfl

/-- A command line on an idle block ends in the completion of its command, with one more read of STATUS. -/
theorem runLine_command {s t : State} {i : Instr} {v : Word} (hb : s.busy = false)
    (hexec : exec i (s.commandIssued i v) = .next t) :
    runLine (.command i (some v)) s = .next (t.reply (.word t.status)) := by
  have harg : happen (.host (.regWrite 1 v)) s = .next { s with arg := v, argv := true } := by
    rw [happen_host rfl]
    simp [State.perform, State.regWrite, hb]
  have hcmd : happen (.host (.regWrite 0 (encode i))) { s with arg := v, argv := true } =
      .next (({ s with arg := v, argv := true } : State).issue (encode i)) := by
    rw [happen_host rfl]
    simp [State.perform, State.regWrite, hb]
  have hcomplete : complete (s.commandIssued i v) = .next t := by
    rw [← hexec, complete, show (s.commandIssued i v).cmdl = encode i from rfl, decode_encode]
  have hwait : waitDone (({ s with arg := v, argv := true } : State).issue (encode i)) =
      .next (t.reply (.word t.status)) := by
    rw [waitDone, if_pos (State.issue_busy ..), happenAll, happen_host rfl, andThen_next, happenAll]
    change andThen (happen .sequencer (s.commandIssued i v)) _ = _
    rw [happen_sequencer rfl, hcomplete, andThen_next, happenAll, happen_host rfl]
    rfl
  rw [runLine, commandWrites, List.map_cons, happenAll, harg, andThen_next, List.map_cons, happenAll, hcmd, andThen_next]
  exact hwait

/-- XFER on an idle block copies the bytes j to j + len - 1 of OBUF, each of them written, to IBUF. -/
theorem transfer_copies {s : State} (hb : s.busy = false) {len j : Nat} (hcap : j + len ≤ s.bcap)
    (hobuf : ∀ k, j ≤ k → k < j + len → (s.obuf.read k).isSome = true) :
    ∃ ib rs, transfer len j s = .next { s with ibuf := ib, replies := rs } ∧
      (∀ k < j, Memory.read ib k = s.ibuf.read k) ∧ ∀ k, j ≤ k → k < j + len → Memory.read ib k = s.obuf.read k := by
  induction len generalizing s j with
  | zero => exact ⟨s.ibuf, s.replies, rfl, fun _ _ => rfl, fun k h1 h2 => absurd h2 (by omega)⟩
  | succ len ih =>
    obtain ⟨b, hread⟩ := Option.isSome_iff_exists.1 (hobuf j le_rfl (by omega))
    have hj : j < s.bcap := by omega
    have hget : happen (.host (.obufRead j)) s = .next (s.reply (.byte b)) := by
      rw [happen_host (m := .obufRead j) (decide_eq_true hj)]
      simp [State.perform, State.obufRead, hb, hread]
    have hput : happen (.host (.ibufWrite j b)) (s.reply (.byte b)) =
        .next { s.reply (.byte b) with ibuf := s.ibuf.write j b } := by
      rw [happen_host (m := .ibufWrite j b) (s := s.reply (.byte b)) (decide_eq_true hj)]
      simp [State.perform, State.ibufWrite, hb]
    obtain ⟨ib, rs, hrun, hbelow, hcopied⟩ := ih (s := { s.reply (.byte b) with ibuf := s.ibuf.write j b }) (j := j + 1) hb
      (by change j + 1 + len ≤ s.bcap; omega) fun k h1 h2 => hobuf k (by omega) (by omega)
    refine ⟨ib, rs, ?_, fun k hk => ?_, fun k h1 h2 => ?_⟩
    · rw [transfer, hget, andThen_next, show lastByte (s.reply (.byte b)) = b from rfl, hput, andThen_next, hrun]
      rfl
    · rw [hbelow k (by omega)]
      exact Memory.read_write_other _ _ (by omega)
    · rcases Nat.lt_or_eq_of_le h1 with h1 | rfl
      · exact hcopied k h1 (by omega)
      · rw [hbelow j (by omega), hread]
        exact Memory.read_write_same ..

/-- A block of a memory split in two. -/
theorem Memory.readBlock_append {α : Type} {m : Memory α} {base : Nat} {xs ys : List α}
    (h : m.readBlock base (xs.length + ys.length) = some (xs ++ ys)) :
    m.readBlock base xs.length = some xs ∧ m.readBlock (base + xs.length) ys.length = some ys := by
  obtain ⟨-, h⟩ := (Memory.readBlock_eq_some_iff ..).1 h
  refine ⟨(Memory.readBlock_eq_some_iff ..).2 ⟨rfl, fun k hk => ?_⟩,
    (Memory.readBlock_eq_some_iff ..).2 ⟨rfl, fun k hk => ?_⟩⟩
  · rw [h k (by omega), List.getElem?_append_left hk]
  · rw [Nat.add_assoc, h (xs.length + k) (by omega), List.getElem?_append_right (by omega), Nat.add_sub_cancel_left]

/-! ## The stages of the pipeline (00_scope.md R2) -/

/-- An idle block with this NMAX and a message in IBUF. -/
structure InputReady (nmax : Word) (bytes : List Byte) (s : State) : Prop where
  idle : s.busy = false
  nmax_eq : s.nmax = nmax
  input : s.ibuf.readBlock 0 bytes.length = some bytes

/-- An idle block with this NMAX, its last command a success, and a message in OBUF. -/
structure OutputReady (nmax : Word) (bytes : List Byte) (s : State) : Prop where
  idle : s.busy = false
  done : s.done = true
  success : s.err = false
  nmax_eq : s.nmax = nmax
  olen : s.olen.toNat = bytes.length
  output : s.obuf.readBlock 0 bytes.length = some bytes

/-- XFER carries the message from OBUF to IBUF. -/
theorem runLine_xfer {nmax : Word} {bytes : List Byte} {s : State} (h : OutputReady nmax bytes s)
    (hcap : bytes.length ≤ Config.bcapOf nmax) :
    ∃ t, runLine (.xfer none) s = .next t ∧ InputReady nmax bytes t := by
  obtain ⟨hidle, -, -, rfl, holen, hout⟩ := h
  obtain ⟨-, hread⟩ := (Memory.readBlock_eq_some_iff ..).1 hout
  simp only [Nat.zero_add] at hread
  have hget : happen (.host (.regRead 4)) s = .next (s.reply (.word s.olen)) := by
    rw [happen_host rfl]
    simp [State.perform, State.regRead, hidle]
  obtain ⟨ib, rs, hrun, -, hcopied⟩ := transfer_copies (s := s.reply (.word s.olen)) hidle (len := bytes.length) (j := 0)
    (by rw [Nat.zero_add]; exact hcap) fun k _ hk => by simp [hread k (by omega), (by omega : k < bytes.length)]
  refine ⟨{ s with ibuf := ib, replies := rs }, ?_, hidle, rfl,
    (Memory.readBlock_eq_some_iff ..).2 ⟨rfl, fun k hk => ?_⟩⟩
  · rw [runLine, hget, andThen_next, show lastWord (s.reply (.word s.olen)) = s.olen from rfl, holen, hrun]
    rfl
  · rw [Nat.zero_add, ← hread k hk]
    exact hcopied k (Nat.zero_le k) (by omega)

/-- A command line whose command writes a message leaves the message in OBUF. -/
theorem runLine_command_outputReady {s u : State} {i : Instr} {v : Word} {bytes : List Byte} {old : Memory Byte}
    (hb : s.busy = false) (heff : Effect (s.commandIssued i v) i u) (hobuf : u.obuf = old.writePrefix bytes)
    (holen : u.olen = BitVec.ofNat 32 bytes.length) (hlen : bytes.length < 2 ^ 32) :
    ∃ t, runLine (.command i (some v)) s = .next t ∧ OutputReady s.nmax bytes t := by
  refine ⟨_, runLine_command hb heff.exec_eq, rfl, rfl, rfl, heff.sameParameters.1, ?_, ?_⟩
  · exact (congrArg BitVec.toNat holen).trans ((BitVec.toNat_ofNat ..).trans (Nat.mod_eq_of_lt hlen))
  · simp [hobuf]

section Stages

variable {nmax : Word} {s : State}

/-- An operand of the pipeline, at most NMAX + 4, fits ARG. -/
theorem toNat_ofNat_of_le_bcapOf (hlegal : legalNmax nmax = true) {k : Nat} (hk : k ≤ Config.bcapOf nmax) :
    k < 2 ^ 32 ∧ (BitVec.ofNat 32 k).toNat = k := by
  have hlt : k < 2 ^ 32 := by
    simp only [legalNmax, Bool.and_eq_true, decide_eq_true_eq, Config.nmaxLimit] at hlegal
    simp only [Config.bcapOf] at hk
    omega
  exact ⟨hlt, (BitVec.toNat_ofNat ..).trans (Nat.mod_eq_of_lt hlt)⟩

theorem length_bwtMessage (text : List Byte) {order : List Nat} (h : Sorted text order) :
    (bwtMessage text order).length = text.length + 4 := by
  rw [bwtMessage, List.length_append, length_lastColumn h, Nat.add_comm]
  rfl

/-- BWT.TRANSFORM on a text leaves its BWT message, by an order in Sorted(text). -/
theorem runLine_transform {text : List Byte} (hlegal : legalNmax nmax = true) (h : InputReady nmax text s)
    (hpos : 1 ≤ text.length) (hle : text.length ≤ nmax.toNat) :
    ∃ order t, Sorted text order ∧ runLine (.command .bwtTransform (some (BitVec.ofNat 32 text.length))) s = .next t ∧
      OutputReady nmax (bwtMessage text order) t := by
  obtain ⟨hidle, rfl, hin⟩ := h
  obtain ⟨-, harg⟩ := toNat_ofNat_of_le_bcapOf hlegal (Nat.le_add_right_of_le hle : _ ≤ Config.bcapOf s.nmax)
  have hsorted := suffixOrder_sorted (s.commandIssued .bwtTransform (BitVec.ofNat 32 text.length)) text
  obtain ⟨hlen, -⟩ := toNat_ofNat_of_le_bcapOf hlegal
    ((length_bwtMessage text hsorted).trans_le (Nat.add_le_add_right hle 4) : _ ≤ Config.bcapOf s.nmax)
  obtain ⟨t, hrun, ht⟩ := runLine_command_outputReady hidle
    (.bwtTransform (text := text) rfl (by rw [State.commandIssued_operand, harg]; omega)
      (by rw [State.commandIssued_operand, harg]; exact hle) (by rw [State.commandIssued_operand, harg]; exact hin))
    rfl rfl hlen
  exact ⟨_, t, hsorted, hrun, ht⟩

/-- MTF.ENCODE on a message of at most BCAP bytes leaves its indices. -/
theorem runLine_encode {input : List Byte} (hlegal : legalNmax nmax = true) (h : InputReady nmax input s)
    (hle : input.length ≤ Config.bcapOf nmax) :
    ∃ t, runLine (.command .mtfEncode (some (BitVec.ofNat 32 input.length))) s = .next t ∧
      OutputReady nmax (encodeStream identityList input).1 t := by
  obtain ⟨hidle, rfl, hin⟩ := h
  obtain ⟨hlt, harg⟩ := toNat_ofNat_of_le_bcapOf hlegal hle
  exact runLine_command_outputReady hidle (.mtfEncode rfl (by rw [State.commandIssued_operand, harg]; exact hle)
    (by rw [State.commandIssued_operand, harg]; exact hin)) rfl rfl (by rwa [length_encodeStream])

/-- MTF.DECODE on at most BCAP indices leaves their symbols. -/
theorem runLine_decode {input : List Byte} (hlegal : legalNmax nmax = true) (h : InputReady nmax input s)
    (hle : input.length ≤ Config.bcapOf nmax) :
    ∃ t, runLine (.command .mtfDecode (some (BitVec.ofNat 32 input.length))) s = .next t ∧
      OutputReady nmax (decodeStream identityList input).1 t := by
  obtain ⟨hidle, rfl, hin⟩ := h
  obtain ⟨hlt, harg⟩ := toNat_ofNat_of_le_bcapOf hlegal hle
  exact runLine_command_outputReady hidle (.mtfDecode rfl (by rw [State.commandIssued_operand, harg]; exact hle)
    (by rw [State.commandIssued_operand, harg]; exact hin)) rfl rfl (by rwa [length_decodeStream])

/-- BWT.INVERSE on the BWT message of a text leaves the text. -/
theorem runLine_inverse {text : List Byte} {order : List Nat} (hlegal : legalNmax nmax = true)
    (hsorted : Sorted text order) (h : InputReady nmax (bwtMessage text order) s) (hpos : 1 ≤ text.length)
    (hle : text.length ≤ nmax.toNat) :
    ∃ t, runLine (.command .bwtInverse (some (BitVec.ofNat 32 text.length))) s = .next t ∧ OutputReady nmax text t := by
  obtain ⟨hidle, rfl, hin⟩ := h
  have hn : text ≠ [] := List.ne_nil_of_length_pos hpos
  have hcap : text.length ≤ Config.bcapOf s.nmax := Nat.le_add_right_of_le hle
  obtain ⟨hlt, harg⟩ := toNat_ofNat_of_le_bcapOf hlegal hcap
  have hfirst := firstRow_lt hsorted hn
  have hbe : be32 (be32Bytes (BitVec.ofNat 32 (firstRow order))) = firstRow order :=
    (be32_be32Bytes _).trans (toNat_ofNat_of_le_bcapOf hlegal (hfirst.le.trans hcap)).2
  rw [bwtMessage, List.length_append] at hin
  obtain ⟨hhead, hcolumn⟩ := Memory.readBlock_append hin
  rw [length_lastColumn hsorted, Nat.zero_add] at hcolumn
  have hwalk := inverseText_lastColumn hsorted (getElem?_firstRow hsorted hn) (rotation_zero text)
  refine runLine_command_outputReady (old := s.obuf) hidle (.bwtInverse rfl
    (by rw [State.commandIssued_operand, harg]; omega) (by rw [State.commandIssued_operand, harg]; exact hle) hhead
    (by rw [hbe, State.commandIssued_operand, harg]; exact hfirst)
    (by rw [State.commandIssued_operand, harg]; exact hcolumn)) ?_ ?_ hlt
  · rw [hbe, State.writeInverse_obuf]
    exact congrArg _ hwalk
  · rw [hbe, State.writeInverse_olen]
    exact congrArg _ (congrArg _ hwalk)

end Stages

theorem runScript_cons {line : ScriptLine} {rest : List ScriptLine} {s t : State} (h : runLine line s = .next t) :
    runScript (line :: rest) s = runScript rest t := by
  rw [runScript, h, andThen_next]

/-- Settles O32: each line of the script hands the next one its message, the MTF passes cancel, and the inverse undoes the
transform by whatever order TIEBREAK gave. -/
theorem pipelineGivesTheTextBack : Obligations.PipelineGivesTheTextBack := by
  unfold Obligations.PipelineGivesTheTextBack
  intro s text hidle hlegal hpos hle htext
  obtain ⟨order, s₁, hsorted, hrun₁, hs₁⟩ := runLine_transform hlegal ⟨hidle, rfl, htext⟩ hpos hle
  have hlen := length_bwtMessage text hsorted
  have hcap : (bwtMessage text order).length ≤ Config.bcapOf s.nmax := hlen.trans_le (Nat.add_le_add_right hle 4)
  have hlen' := (length_encodeStream identityList (bwtMessage text order)).trans hlen
  have hcap' := (length_encodeStream identityList (bwtMessage text order)).trans_le hcap
  have hround : (decodeStream identityList (encodeStream identityList (bwtMessage text order)).1).1 =
      bwtMessage text order := by rw [decodeStream_encodeStream (.refl _)]
  obtain ⟨s₂, hrun₂, hs₂⟩ := runLine_xfer hs₁ hcap
  obtain ⟨s₃, hrun₃, hs₃⟩ := runLine_encode hlegal hs₂ hcap
  obtain ⟨s₄, hrun₄, hs₄⟩ := runLine_xfer hs₃ hcap'
  obtain ⟨s₅, hrun₅, hs₅⟩ := runLine_decode hlegal hs₄ hcap'
  rw [hround] at hs₅
  obtain ⟨s₆, hrun₆, hs₆⟩ := runLine_xfer hs₅ hcap
  obtain ⟨t, hrun₇, ht⟩ := runLine_inverse hlegal hsorted hs₆ hpos hle
  rw [hlen] at hrun₃
  rw [hlen'] at hrun₅
  refine ⟨t, ?_, ht.idle, ht.done, ht.success, ht.olen, ht.output⟩
  rw [runScript_cons hrun₁, runScript_cons hrun₂, runScript_cons hrun₃, runScript_cons hrun₄, runScript_cons hrun₅,
    runScript_cons hrun₆, runScript_cons hrun₇, runScript]

end Sys2Proof.Machine

namespace Sys2Proof.Machine

/-! ## Everything a step can do, as one relation -/

/-- The sequencer's turn comes next and `rest` after it: the turn is scheduled, or nothing is (log 1). -/
def State.TurnNext (s : State) (rest : List Event) : Prop :=
  (s.schedule = [] ∧ rest = []) ∨ s.schedule = .sequencer :: rest

/-- `StepEffect s t`: everything a step from s can make of it (20_memory.md R73). -/
inductive StepEffect (s : State) : State → Prop
  | idle {rest} (hturn : s.TurnNext rest) (hb : s.busy = false) : StepEffect s { s with schedule := rest }
  | completion {rest t} (hturn : s.TurnNext rest) (hb : s.busy = true)
      (hc : complete { s with schedule := rest } = .next t) : StepEffect s t
  | hardReset {rest} (hs : s.schedule = .hardReset :: rest) :
      StepEffect s ({ s with schedule := rest } : State).hardReset
  | move {m rest t} (hs : s.schedule = .host m :: rest) (hwf : m.wf s.bcap = true)
      (hm : MoveEffect { s with schedule := rest } m t) : StepEffect s t

theorem State.schedule_nil_eq {s : State} (hs : s.schedule = []) : { s with schedule := [] } = s := by
  rw [← hs]

theorem stepEffect_of_turn {s t : State} {rest : List Event} (hturn : s.TurnNext rest)
    (h : sequencerTurn { s with schedule := rest } = .next t) : StepEffect s t := by
  rcases sequencerTurn_next h with ⟨hb, hc⟩ | ⟨hb, rfl⟩
  · exact .completion hturn hb hc
  · exact .idle hturn hb

theorem step_effect {s t : State} (h : step s = .next t) : StepEffect s t := by
  rcases step_next h with ⟨hs, h⟩ | ⟨rest, hs, h⟩ | ⟨rest, hs, rfl⟩ | ⟨m, rest, hs, hwf, rfl⟩
  · exact stepEffect_of_turn (.inl ⟨hs, rfl⟩) (by rwa [State.schedule_nil_eq hs])
  · exact stepEffect_of_turn (.inr hs) h
  · exact .hardReset hs
  · exact .move hs hwf (State.perform_effect ..)

/-- A property that ignores the schedule and that each kind of event keeps is kept by every step. -/
theorem step_keeps {P : State → Prop} (hschedule : ∀ s rest, P s → P { s with schedule := rest })
    (hfail : ∀ s c, c ≠ Cause.none → P s → P (s.fail c)) (heffect : ∀ s i u, Effect s i u → P s → P u.succeed)
    (hmove : ∀ s m u, m.wf s.bcap = true → MoveEffect s m u → P s → P u) (hreset : ∀ s, P s → P s.hardReset)
    {s t : State} (hs : P s) (h : step s = .next t) : P t := by
  cases step_effect h with
  | idle => exact hschedule _ _ hs
  | completion _ _ hdone =>
    rcases complete_next_cases hdone with ⟨c, hc, rfl⟩ | ⟨i, u, -, hu, rfl⟩
    · exact hfail _ c hc (hschedule _ _ hs)
    · exact heffect _ i u hu (hschedule _ _ hs)
  | hardReset => exact hreset _ (hschedule _ _ hs)
  | @move m rest t _ hwf hm => exact hmove { s with schedule := rest } m t hwf hm (hschedule s rest hs)

/-- CSS.INDEXAT writes RESULT only, and draws a value where the entry holds none. -/
theorem State.resultFromSa_eq (s : State) (i : Nat) :
    s.resultFromSa i = { s with result := (s.resultFromSa i).result, drawn := (s.resultFromSa i).drawn } := by
  unfold State.resultFromSa
  split <;> rfl

/-! ## Memories that fit their space -/

theorem Memory.Fits.nil {α : Type} (size : Nat) : Memory.Fits ([] : Memory α) size := ⟨.nil, by simp⟩

theorem Memory.Fits.write {α : Type} {m : Memory α} {size i : Nat} (h : m.Fits size) (hi : i < size) (v : α) :
    (m.write i v).Fits size :=
  ⟨Memory.wf_write m i v h.1, fun e he => (Memory.mem_write m i v he).elim (fun heq => heq ▸ hi) (h.2 e)⟩

theorem Memory.Fits.block {α : Type} {vs : List α} {size : Nat} (h : vs.length ≤ size) :
    (Memory.block 0 vs).Fits size :=
  ⟨Memory.wf_block 0 vs, fun e he => by have := (Memory.mem_block he).2; omega⟩

theorem Memory.Fits.writePrefix {α : Type} {m : Memory α} {size : Nat} (hm : m.Fits size) {vs : List α}
    (h : vs.length ≤ size) : (m.writePrefix vs).Fits size :=
  ⟨Memory.wf_writePrefix m vs hm.1, fun e he => (Memory.mem_writePrefix he).elim (fun hlt => hlt.trans_le h) (hm.2 e)⟩

/-! ## The sorter's hidden invariant (41_css.md R128, R132) -/

/-- Disjoint ranges of at least two entries each are at most floor(n / 2): each of them holds an odd row of its own. -/
theorem SortRun.ItemsInv.length_items_le {text : List Byte} {r : SortRun} (h : r.ItemsInv text) :
    r.items.length ≤ text.length / 2 := by
  have hnodup : (r.items.map fun w => w.lo / 2).Nodup := by
    refine List.pairwise_map.2 (h.apart.imp_of_mem fun {v w} hv hw hvw => ?_)
    have hv := (h.fits v hv).two
    have hw := (h.fits w hw).two
    unfold WorkItem.Apart at hvw
    omega
  have hsub : (r.items.map fun w => w.lo / 2) ⊆ List.range (text.length / 2) := by
    intro k hk
    obtain ⟨w, hw, rfl⟩ := List.mem_map.1 hk
    have htwo := (h.fits w hw).two
    have hhi := (h.fits w hw).hi_lt
    exact List.mem_range.2 (by omega)
  simpa using (hnodup.subperm hsub).length_le

theorem SortRun.length_items_le_pushPart (r : SortRun) (ok : Bool) (w : WorkItem) :
    r.items.length ≤ (r.pushPart ok w).items.length := by
  unfold SortRun.pushPart
  split_ifs <;> simp [SortRun.push]

/-- A push that leaves at most `size` items on the stack writes below `size`. -/
theorem SortRun.mem_fits_pushPart {r : SortRun} {ok : Bool} {w : WorkItem} {size : Nat} (h : r.mem.Fits size)
    (hlen : (r.pushPart ok w).items.length ≤ size) : (r.pushPart ok w).mem.Fits size := by
  unfold SortRun.pushPart at hlen ⊢
  split_ifs at hlen ⊢
  · exact h.write hlen w.entry
  · exact h

theorem mem_fits_sortRound {text : List Byte} {r : SortRun} {size : Nat} (h : r.mem.Fits size)
    (hlen : (sortRound text r).items.length ≤ size) : (sortRound text r).mem.Fits size := by
  cases hr : r.items with
  | nil => rwa [sortRound_nil text hr]
  | cons w rest =>
    rw [sortRound_cons text hr] at hlen ⊢
    have hlen₂ := (SortRun.length_items_le_pushPart ..).trans hlen
    have hlen₁ := (SortRun.length_items_le_pushPart ..).trans hlen₂
    have h₀ : (r.afterPartition text w rest).mem.Fits size := h
    exact SortRun.mem_fits_pushPart (SortRun.mem_fits_pushPart (SortRun.mem_fits_pushPart h₀ hlen₁) hlen₂) hlen

theorem mem_fits_sortRounds {text : List Byte} {size : Nat} (hsize : text.length / 2 ≤ size) (k : Nat) {r : SortRun}
    (hinv : r.ItemsInv text) (h : r.mem.Fits size) : (sortRounds text k r).mem.Fits size := by
  induction k generalizing r with
  | zero => exact h
  | succ k ih =>
    unfold sortRounds
    split
    · exact h
    · have hinv' := sortRound_keeps_itemsInv hinv
      exact ih hinv' (mem_fits_sortRound h (hinv'.length_items_le.trans hsize))

/-- The reference sort writes STACK below floor(n / 2) only. -/
theorem mem_fits_runSort {text : List Byte} {mem : Memory StackEntry} {size : Nat} (hsize : text.length / 2 ≤ size)
    (h : mem.Fits size) (cur : Cursors) : (runSort text mem cur).mem.Fits size := by
  have hinv := sortStart_itemsInv text mem cur
  exact mem_fits_sortRounds hsize _ hinv (SortRun.mem_fits_pushPart h (hinv.length_items_le.trans hsize))

/-- A sort of at most NMAX characters keeps STACK within STKCAP entries and ends with SP = 0. -/
theorem State.SorterInv.buildSuffixArray {s : State} (h : s.SorterInv) {text : List Byte}
    (hle : text.length ≤ s.nmax.toNat) : (s.buildSuffixArray text).SorterInv := by
  refine ⟨?_, mem_fits_runSort ?_ h.stack_fits s.cur⟩
  · rw [State.buildSuffixArray_sp, items_runSort]; rfl
  · exact (Nat.div_le_div_right hle).trans (le_max_right ..)

theorem Effect.keeps_sorterInv {s u : State} {i : Instr} (hu : Effect s i u) (h : s.SorterInv) : u.SorterInv := by
  obtain ⟨hsp, hstack⟩ := h
  cases hu with
  | cssBuild _ _ hle hm =>
    exact State.SorterInv.buildSuffixArray ⟨hsp, hstack⟩ ((Memory.readBlock_length hm).trans_le hle)
  | bwtTransform _ _ hle hm =>
    obtain ⟨hsp', hstack'⟩ :=
      State.SorterInv.buildSuffixArray ⟨hsp, hstack⟩ ((Memory.readBlock_length hm).trans_le hle)
    exact ⟨hsp', hstack'⟩
  | ctlReset => exact ⟨rfl, hstack⟩
  | cssIndexat => rw [State.resultFromSa_eq]; exact ⟨hsp, hstack⟩
  | _ => exact ⟨hsp, hstack⟩

theorem MoveEffect.keeps_sorterInv {s u : State} {m : HostMove} (hu : MoveEffect s m u) (h : s.SorterInv) :
    u.SorterInv := by
  obtain ⟨hsp, hstack⟩ := h
  cases hu <;> exact ⟨hsp, hstack⟩

theorem State.hardReset_sorterInv (s : State) : s.hardReset.SorterInv := ⟨rfl, .nil _⟩

/-- Settles O60: only the reference sort and the two resets write STACK or SP, and the sort keeps its work items disjoint. -/
theorem everyStepKeepsTheSorterInvariant : Obligations.EveryStepKeepsTheSorterInvariant := by
  unfold Obligations.EveryStepKeepsTheSorterInvariant
  intro s t hs h
  refine step_keeps (P := State.SorterInv) ?_ ?_ ?_ ?_ ?_ hs h
  · exact fun s rest h => ⟨h.stack_empty, h.stack_fits⟩
  · exact fun s c _ h => ⟨h.stack_empty, h.stack_fits⟩
  · intro s i u hu h
    obtain ⟨hsp, hstack⟩ := hu.keeps_sorterInv h
    exact ⟨hsp, hstack⟩
  · exact fun s m u _ hu h => hu.keeps_sorterInv h
  · exact fun s _ => s.hardReset_sorterInv

end Sys2Proof.Machine

namespace Sys2Proof.Machine

/-! ## The block's invariant (10_state.md R24 to R42) -/

theorem decStep_perm {list : List Byte} (h : list.Perm identityList) {k : Nat} (hk : k < 256) :
    (decStep k list).2.Perm identityList := by
  have hlen : k < list.length := by rwa [h.length_eq, identityList, List.length_map, List.length_range]
  refine (moveToFront_perm ?_).trans h
  rw [List.getD_eq_getElem _ _ hlen, List.getElem?_eq_getElem hlen]

theorem encodeStream_perm {list : List Byte} (h : list.Perm identityList) (input : List Byte) :
    (encodeStream list input).2.Perm identityList := by
  induction input generalizing list with
  | nil => exact h
  | cons c rest ih => exact ih (encStep_perm h c)

theorem decodeStream_perm {list : List Byte} (h : list.Perm identityList) (input : List Byte) :
    (decodeStream list input).2.Perm identityList := by
  induction input generalizing list with
  | nil => exact h
  | cons k rest ih => exact ih (decStep_perm h k.isLt)

namespace State.Inv

variable {s : State}

theorem withSchedule (h : s.Inv) (rest : List Event) : ({ s with schedule := rest } : State).Inv := { h with }

theorem fail (h : s.Inv) {c : Cause} (hc : c ≠ .none) : (s.fail c).Inv :=
  { h with
    busy_not_done := by simp
    busy_no_error := by simp
    report := by simpa using hc
    error_done := by simp
    operand_latched := by simp
    operand_used := by simp }

theorem succeed (h : s.Inv) : s.succeed.Inv :=
  { h with
    busy_not_done := by simp
    busy_no_error := by simp
    report := by simp
    error_done := by simp
    operand_latched := by simp
    operand_used := by simp }

theorem softReset (h : s.Inv) : s.softReset.Inv :=
  { h with
    operand_latched := fun _ => rfl
    operand_used := fun _ _ => rfl
    list_permutation := .refl _
    suffix_array := by simp
    no_suffix_array := fun _ => rfl
    message := ⟨Nat.zero_le _, rfl⟩ }

theorem hardReset (h : legalNmax s.nmax = true) : s.hardReset.Inv where
  nmax_legal := h
  busy_not_done := fun _ => rfl
  busy_no_error := fun _ => rfl
  report := by simp [State.reset]
  error_done := fun h => h
  operand_latched := fun _ => rfl
  operand_used := fun _ _ => rfl
  ibuf_fits := .nil _
  obuf_fits := .nil _
  sa_fits := .nil _
  next_fits := .nil _
  sorted_fits := .nil _
  count_fits := .nil _
  list_permutation := .refl _
  suffix_array := fun h => Bool.noConfusion h
  no_suffix_array := fun _ => rfl
  message := ⟨Nat.zero_le _, rfl⟩

/-- A build on a text of length in [1, NMAX] lists TIEBREAK's order, a permutation of the offsets (41_css.md R122). -/
theorem buildSuffixArray (h : s.Inv) {text : List Byte} (hpos : text.length ≠ 0) (hle : text.length ≤ s.nmax.toNat) :
    (s.buildSuffixArray text).Inv := by
  have hlen := length_suffixOrder s text
  have hn : (BitVec.ofNat 32 text.length).toNat = text.length :=
    (toNat_ofNat_of_le_bcapOf h.nmax_legal (Nat.le_add_right_of_le hle)).2
  refine { h with sa_fits := .block (by simpa [hlen] using hle), suffix_array := fun _ => ?_, no_suffix_array := by simp }
  rw [State.buildSuffixArray_n, hn]
  refine ⟨Nat.one_le_iff_ne_zero.2 hpos, hle, s.suffixOrder text, (suffixOrder_sorted s text).1, ?_⟩
  have hread := Memory.readBlock_block ((s.suffixOrder text).map (BitVec.ofNat 32))
  rwa [List.length_map, hlen] at hread

/-- A message of at most BCAP bytes is written where OLEN says (10_state.md R31, R37). -/
theorem writeMessage (h : s.Inv) {bytes : List Byte} (hle : bytes.length ≤ s.bcap) : (s.writeMessage bytes).Inv := by
  have holen : (s.writeMessage bytes).olen.toNat = bytes.length := (toNat_ofNat_of_le_bcapOf h.nmax_legal hle).2
  refine { h with obuf_fits := h.obuf_fits.writePrefix hle, message := ?_ }
  rw [holen, State.writeMessage_obuf, Memory.readBlock_writePrefix]
  exact ⟨hle, rfl⟩

theorem withList (h : s.Inv) {list : List Byte} (hlist : list.Perm identityList) :
    ({ s with list := list } : State).Inv := { h with list_permutation := hlist }

theorem writeTransform (h : s.Inv) {text : List Byte} (hpos : text.length ≠ 0) (hle : text.length ≤ s.nmax.toNat) :
    (s.writeTransform text).Inv := by
  have hmessage : (bwtMessage text (s.suffixOrder text)).length ≤ s.bcap :=
    (length_bwtMessage text (suffixOrder_sorted s text)).trans_le (Nat.add_le_add_right hle 4)
  exact { (h.buildSuffixArray hpos hle).writeMessage (s := s.buildSuffixArray text) hmessage with }

theorem writeInverse (h : s.Inv) (first : Nat) {column : List Byte} (hle : column.length ≤ s.nmax.toNat) :
    (s.writeInverse first column).Inv := by
  obtain ⟨hcount, hnext, hsorted⟩ := length_inverseTables column
  have hmessage : (walk (inverseTables column) column.length first).1.length ≤ s.bcap :=
    (length_walk ..).trans_le (Nat.le_add_right_of_le hle)
  exact { h.writeMessage hmessage with
    next_fits := h.next_fits.writePrefix (by rwa [List.length_map, hnext])
    sorted_fits := h.sorted_fits.writePrefix (by rwa [hsorted])
    count_fits := h.count_fits.writePrefix (by rw [List.length_map, hcount]) }

end State.Inv

theorem Effect.keeps_inv {s u : State} {i : Instr} (hu : Effect s i u) (h : s.Inv) : u.Inv := by
  cases hu with
  | ctlNop => exact h
  | ctlReset => exact h.softReset
  | cssBuild _ hpos hle hm =>
    rw [← Memory.readBlock_length hm] at hpos hle
    exact h.buildSuffixArray hpos hle
  | cssLength => exact { h with }
  | cssIndexat => rw [State.resultFromSa_eq]; exact { h with }
  | bwtTransform _ hpos hle hm =>
    rw [← Memory.readBlock_length hm] at hpos hle
    exact h.writeTransform hpos hle
  | bwtInverse _ _ hle _ _ hm => exact h.writeInverse _ ((Memory.readBlock_length hm).trans_le hle)
  | mtfInit => exact h.withList (.refl _)
  | mtfEnc1 => exact { h.withList (encStep_perm h.list_permutation _) with }
  | mtfDec1 _ hlt => exact { h.withList (decStep_perm h.list_permutation hlt) with }
  | mtfEncode _ hle hm =>
    have hmessage := (length_encodeStream identityList _).trans_le ((Memory.readBlock_length hm).trans_le hle)
    exact { (h.writeMessage hmessage).withList (encodeStream_perm (.refl _) _) with }
  | mtfDecode _ hle hm =>
    have hmessage := (length_decodeStream identityList _).trans_le ((Memory.readBlock_length hm).trans_le hle)
    exact { (h.writeMessage hmessage).withList (decodeStream_perm (.refl _) _) with }

/-- The operand latched by an issue is ARG, and is used up where the command takes one (40_ctl.md R110). -/
theorem State.Inv.issue {s : State} (h : s.Inv) (w : Word) : (s.issue w).Inv :=
  { h with
    busy_not_done := fun _ => rfl
    busy_no_error := fun _ => rfl
    report := by simp
    error_done := by simp
    operand_latched := fun _ => rfl
    operand_used := fun _ hw => if_pos hw }

theorem MoveEffect.keeps_inv {s u : State} {m : HostMove} (hu : MoveEffect s m u) (hwf : m.wf s.bcap = true)
    (h : s.Inv) : u.Inv := by
  cases hu with
  | issue => exact h.issue _
  | writeArg hb => exact { h with operand_latched := by simp [hb], operand_used := by simp [hb] }
  | writeIbuf => exact { h with ibuf_fits := h.ibuf_fits.write (of_decide_eq_true hwf) _ }
  | dropped => exact { h with }
  | ignored => exact h
  | read => exact { h with }

/-- Settles O59: a failure changes the report only, each command's effect keeps the invariant and a success reports it, and
so do the host's moves and hardware reset. -/
theorem everyStepKeepsTheInvariant : Obligations.EveryStepKeepsTheInvariant := by
  unfold Obligations.EveryStepKeepsTheInvariant
  intro s t hs h
  refine step_keeps (P := State.Inv) ?_ ?_ ?_ ?_ ?_ hs h
  · exact fun s rest h => h.withSchedule rest
  · exact fun s c hc h => h.fail hc
  · exact fun s i u hu h => (hu.keeps_inv h).succeed
  · exact fun s m u hwf hu h => hu.keeps_inv hwf h
  · exact fun s h => .hardReset h.nmax_legal

/-- Settles O58: State.reset is a state after hardware reset, with a legal NMAX. -/
theorem resetMeetsTheInvariants : Obligations.ResetMeetsTheInvariants := by
  unfold Obligations.ResetMeetsTheInvariants
  exact ⟨State.Inv.hardReset (s := State.reset) (by decide), State.reset.hardReset_sorterInv⟩

end Sys2Proof.Machine

namespace Sys2Proof

theorem HostMove.isDroppable_iff (m : HostMove) : m.isDroppable = true ↔
    (∃ v, m = .regWrite 0 v) ∨ (∃ v, m = .regWrite 1 v) ∨ ∃ j b, m = .ibufWrite j b := by
  cases m with
  | regWrite k v =>
    simp only [HostMove.isDroppable, decide_eq_true_eq, HostMove.regWrite.injEq, reduceCtorEq, exists_false, or_false,
      exists_and_left, exists_eq', and_true]
    omega
  | _ => simp [HostMove.isDroppable]

theorem HostMove.isDroppable_of_isRead {m : HostMove} (h : m.isRead = true) : m.isDroppable = false := by
  cases m with
  | regWrite | ibufWrite => cases h
  | _ => rfl

end Sys2Proof

namespace Sys2Proof.Machine

/-! ## Which command may change which state (10_state.md R47; 40_ctl.md R112) -/

section OwnState

variable {s u : State} {i : Instr}

theorem Effect.interface_eq (hu : Effect s i u) :
    u.cmdl = s.cmdl ∧ u.ibuf = s.ibuf ∧ u.schedule = s.schedule ∧ u.replies = s.replies := by
  cases hu with
  | cssIndexat => rw [State.resultFromSa_eq]; exact ⟨rfl, rfl, rfl, rfl⟩
  | _ => exact ⟨rfl, rfl, rfl, rfl⟩

theorem Effect.operand_eq (hu : Effect s i u) (hi : i ≠ .ctlReset) :
    u.arg = s.arg ∧ u.argv = s.argv ∧ u.ovr = s.ovr ∧ u.argl = s.argl ∧ u.avl = s.avl := by
  cases hu with
  | ctlReset => exact absurd rfl hi
  | cssIndexat => rw [State.resultFromSa_eq]; exact ⟨rfl, rfl, rfl, rfl, rfl⟩
  | _ => exact ⟨rfl, rfl, rfl, rfl, rfl⟩

theorem Effect.sorter_eq (hu : Effect s i u) (hi : i ∉ [Instr.cssBuild, .bwtTransform]) :
    u.sa = s.sa ∧ u.stack = s.stack := by
  cases hu with
  | cssBuild | bwtTransform => simp at hi
  | cssIndexat => rw [State.resultFromSa_eq]; exact ⟨rfl, rfl⟩
  | _ => exact ⟨rfl, rfl⟩

theorem Effect.suffixArray_eq (hu : Effect s i u) (hi : i ∉ [Instr.cssBuild, .bwtTransform, .ctlReset]) :
    u.n = s.n ∧ u.sav = s.sav ∧ u.sp = s.sp := by
  cases hu with
  | cssBuild | bwtTransform | ctlReset => simp at hi
  | cssIndexat => rw [State.resultFromSa_eq]; exact ⟨rfl, rfl, rfl⟩
  | _ => exact ⟨rfl, rfl, rfl⟩

theorem Effect.result_eq (hu : Effect s i u)
    (hi : i ∉ [Instr.cssLength, .cssIndexat, .bwtTransform, .mtfEnc1, .mtfDec1, .ctlReset]) : u.result = s.result := by
  cases hu with
  | cssLength | cssIndexat | bwtTransform | mtfEnc1 | mtfDec1 | ctlReset => simp at hi
  | _ => rfl

theorem Effect.obuf_eq (hu : Effect s i u) (hi : i ∉ [Instr.bwtTransform, .bwtInverse, .mtfEncode, .mtfDecode]) :
    u.obuf = s.obuf := by
  cases hu with
  | bwtTransform | bwtInverse | mtfEncode | mtfDecode => simp at hi
  | cssIndexat => rw [State.resultFromSa_eq]
  | _ => rfl

theorem Effect.olen_eq (hu : Effect s i u)
    (hi : i ∉ [Instr.bwtTransform, .bwtInverse, .mtfEncode, .mtfDecode, .ctlReset]) : u.olen = s.olen := by
  cases hu with
  | bwtTransform | bwtInverse | mtfEncode | mtfDecode | ctlReset => simp at hi
  | cssIndexat => rw [State.resultFromSa_eq]
  | _ => rfl

theorem Effect.tables_eq (hu : Effect s i u) (hi : i ≠ .bwtInverse) :
    u.next = s.next ∧ u.sorted = s.sorted ∧ u.count = s.count := by
  cases hu with
  | bwtInverse => exact absurd rfl hi
  | cssIndexat => rw [State.resultFromSa_eq]; exact ⟨rfl, rfl, rfl⟩
  | _ => exact ⟨rfl, rfl, rfl⟩

theorem Effect.list_eq (hu : Effect s i u)
    (hi : i ∉ [Instr.mtfInit, .mtfEnc1, .mtfDec1, .mtfEncode, .mtfDecode, .ctlReset]) : u.list = s.list := by
  cases hu with
  | mtfInit | mtfEnc1 | mtfDec1 | mtfEncode | mtfDecode | ctlReset => simp at hi
  | cssIndexat => rw [State.resultFromSa_eq]
  | _ => rfl

end OwnState

/-- Settles O49: a failure changes the report only, and a success what the command's effect may change. -/
theorem eachCommandWritesOnlyItsOwn : Obligations.EachCommandWritesOnlyItsOwn := by
  unfold Obligations.EachCommandWritesOnlyItsOwn
  intro s t i h
  rcases exec_next h with ⟨c, -, rfl⟩ | ⟨u, hu, rfl⟩
  · simp
  · exact ⟨⟨hu.sameParameters.1, hu.sameParameters.2, hu.interface_eq⟩, hu.operand_eq, hu.sorter_eq, hu.suffixArray_eq,
      hu.result_eq, hu.obuf_eq, hu.olen_eq, hu.tables_eq, hu.list_eq⟩

/-! ## The flags BUSY, OVR and SAV (10_state.md R25, R28, R29) -/

/-- A flag that stays, or is set under A, or is cleared under B. -/
theorem flag_changes {a b : Bool} {A B : Prop} (h : b = a ∨ (b = true ∧ A) ∨ (b = false ∧ B)) :
    (a = false → b = true → A) ∧ (a = true → b = false → B) := by
  rcases h with rfl | ⟨rfl, hA⟩ | ⟨rfl, hB⟩
  · exact ⟨fun h h' => absurd (h.symm.trans h') (by decide), fun h h' => absurd (h.symm.trans h') (by decide)⟩
  · exact ⟨fun _ _ => hA, fun _ h => absurd h (by decide)⟩
  · exact ⟨fun _ h => absurd h (by decide), fun _ _ => hB⟩

/-- A word is its three fields (30_encoding.md R90). -/
theorem toNat_eq_fields (w : Word) :
    w.toNat = (zeroField w).toNat * 256 + (unitField w).toNat * 16 + (fnField w).toNat := by
  have := w.isLt
  simp only [zeroField, unitField, fnField, BitVec.extractLsb'_toNat, Nat.shiftRight_eq_div_pow]
  omega

section FunctionFields

variable {fn : Nat} {i : Instr}

theorem toNat_encode_of_decodeCtl (h : decodeCtl fn = .instr i) : (encode i).toNat = fn := by
  unfold decodeCtl at h
  split at h <;> cases h <;> rfl

theorem toNat_encode_of_decodeCss (h : decodeCss fn = .instr i) : (encode i).toNat = 16 + fn := by
  unfold decodeCss at h
  split at h <;> cases h <;> rfl

theorem toNat_encode_of_decodeBwt (h : decodeBwt fn = .instr i) : (encode i).toNat = 32 + fn := by
  unfold decodeBwt at h
  split at h <;> cases h <;> rfl

theorem toNat_encode_of_decodeMtf (h : decodeMtf fn = .instr i) : (encode i).toNat = 48 + fn := by
  unfold decodeMtf at h
  split at h <;> cases h <;> rfl

end FunctionFields

/-- The decoder reads a command only in its match value (30_encoding.md R92). -/
theorem eq_encode_of_decode {w : Word} {i : Instr} (h : decode w = .instr i) : w = encode i := by
  refine BitVec.eq_of_toNat_eq ((toNat_eq_fields w).trans ?_)
  unfold decode at h
  split_ifs at h with hz
  rw [hz]
  split at h
  · next hunit => simp [hunit, toNat_encode_of_decodeCtl h]
  · next hunit => simp [hunit, toNat_encode_of_decodeCss h]
  · next hunit => simp [hunit, toNat_encode_of_decodeBwt h]
  · next hunit => simp [hunit, toNat_encode_of_decodeMtf h]
  · cases h

theorem complete_idle {s t : State} (h : complete s = .next t) : t.busy = false := by
  rcases complete_next_cases h with ⟨c, -, rfl⟩ | ⟨i, u, -, -, rfl⟩ <;> rfl

/-- What a step can do to BUSY. -/
theorem step_busy {s t : State} (h : step s = .next t) : t.busy = s.busy ∨
    (t.busy = true ∧ ∃ w rest, s.schedule = .host (.regWrite 0 w) :: rest ∧ t.cmdl = w) ∨
    (t.busy = false ∧ ((s.schedule = [] ∧ complete s = .next t) ∨
      (∃ rest, s.schedule = .sequencer :: rest ∧ complete { s with schedule := rest } = .next t) ∨
      ∃ rest, s.schedule = .hardReset :: rest)) := by
  cases step_effect h with
  | idle => exact .inl rfl
  | completion hturn hb hc =>
    refine .inr (.inr ⟨complete_idle hc, ?_⟩)
    rcases hturn with ⟨hs, rfl⟩ | hs
    · exact .inl ⟨hs, by rwa [State.schedule_nil_eq hs] at hc⟩
    · exact .inr (.inl ⟨_, hs, hc⟩)
  | hardReset hs => exact .inr (.inr ⟨rfl, .inr (.inr ⟨_, hs⟩)⟩)
  | move hs _ hm =>
    cases hm with
    | issue => exact .inr (.inl ⟨rfl, _, _, hs, rfl⟩)
    | _ => exact .inl rfl

/-- Settles O52: of the events only the issue sets BUSY, and only a completion or hardware reset clears it (`step_busy`). -/
theorem busyChangesOnlyAtIssueCompletionAndReset : Obligations.BusyChangesOnlyAtIssueCompletionAndReset := by
  unfold Obligations.BusyChangesOnlyAtIssueCompletionAndReset
  intro s t h
  obtain ⟨hset, hclear⟩ := flag_changes (step_busy h)
  exact ⟨hset, hclear⟩

/-- A busy block drops the writes of CMD, ARG and IBUF (20_memory.md R62). -/
theorem MoveEffect.eq_overrun {s u : State} {m : HostMove} (hu : MoveEffect s m u) (hb : s.busy = true)
    (hm : m.isDroppable = true) : u = s.overrun := by
  cases hu with
  | issue hidle | writeArg hidle | writeIbuf hidle => exact absurd (hb.symm.trans hidle) (by decide)
  | dropped => rfl
  | ignored hk => exact absurd (of_decide_eq_true hm) (Nat.not_lt.2 hk)
  | read _ _ hread => exact absurd (hm.symm.trans (HostMove.isDroppable_of_isRead hread)) (by decide)

theorem step_host {s t : State} {m : HostMove} {rest : List Event} (hs : s.schedule = .host m :: rest)
    (h : step s = .next t) : MoveEffect { s with schedule := rest } m t := by
  unfold step at h
  rw [hs] at h
  obtain ⟨-, rfl⟩ := hostMove_next h
  exact State.perform_effect ..

theorem State.TurnNext.cases {s : State} {rest : List Event} (h : s.TurnNext rest) :
    s.schedule = [] ∨ ∃ rest, s.schedule = .sequencer :: rest :=
  h.imp And.left fun hs => ⟨rest, hs⟩

/-- What a step can do to OVR. -/
theorem step_ovr {s t : State} (h : step s = .next t) : t.ovr = s.ovr ∨
    (t.ovr = true ∧ s.busy = true ∧ ∃ m rest, s.schedule = .host m :: rest ∧ m.isDroppable = true ∧
      t = { s with schedule := rest, ovr := true }) ∨
    (t.ovr = false ∧ ((∃ rest, s.schedule = .hardReset :: rest) ∨
      (s.busy = true ∧ s.cmdl = encode .ctlReset ∧ (s.schedule = [] ∨ ∃ rest, s.schedule = .sequencer :: rest)))) := by
  cases step_effect h with
  | idle => exact .inl rfl
  | completion hturn hb hc =>
    rcases complete_next_cases hc with ⟨c, -, rfl⟩ | ⟨i, u, hi, hu, rfl⟩
    · exact .inl rfl
    · by_cases hreset : i = .ctlReset
      · subst hreset
        cases hu
        exact .inr (.inr ⟨rfl, .inr ⟨hb, eq_encode_of_decode hi, hturn.cases⟩⟩)
      · obtain ⟨-, -, hovr, -⟩ := hu.operand_eq hreset
        exact .inl hovr
  | hardReset hs => exact .inr (.inr ⟨rfl, .inl ⟨_, hs⟩⟩)
  | move hs _ hm =>
    cases hm with
    | dropped hb hm => exact .inr (.inl ⟨rfl, hb, _, _, hs, hm, rfl⟩)
    | _ => exact .inl rfl

/-- Settles O53: of the events only a dropped write sets OVR, and only the two resets clear it (`step_ovr`). -/
theorem overrunIsSticky : Obligations.OverrunIsSticky := by
  unfold Obligations.OverrunIsSticky
  simp only [← HostMove.isDroppable_iff]
  refine ⟨rfl, fun s t h => ?_⟩
  obtain ⟨hset, hclear⟩ := flag_changes (step_ovr h)
  exact ⟨hset, hclear, fun m rest hs hb hm => congrArg State.ovr ((step_host hs h).eq_overrun hb hm)⟩

/-- What a step can do to SAV. -/
theorem step_sav {s t : State} (h : step s = .next t) : t.sav = s.sav ∨
    (t.sav = true ∧ s.busy = true ∧ (s.cmdl = encode .cssBuild ∨ s.cmdl = encode .bwtTransform) ∧ t.err = false) ∨
    (t.sav = false ∧ ((∃ rest, s.schedule = .hardReset :: rest) ∨ (s.busy = true ∧ s.cmdl = encode .ctlReset))) := by
  cases step_effect h with
  | idle => exact .inl rfl
  | completion _ hb hc =>
    rcases complete_next_cases hc with ⟨c, -, rfl⟩ | ⟨i, u, hi, hu, rfl⟩
    · exact .inl rfl
    · have hcmdl := eq_encode_of_decode hi
      cases hu with
      | cssBuild => exact .inr (.inl ⟨rfl, hb, .inl hcmdl, rfl⟩)
      | bwtTransform => exact .inr (.inl ⟨rfl, hb, .inr hcmdl, rfl⟩)
      | ctlReset => exact .inr (.inr ⟨rfl, .inr ⟨hb, hcmdl⟩⟩)
      | cssIndexat => rw [State.resultFromSa_eq]; exact .inl rfl
      | _ => exact .inl rfl
  | hardReset hs => exact .inr (.inr ⟨rfl, .inl ⟨_, hs⟩⟩)
  | move _ _ hm => cases hm <;> exact .inl rfl

/-- Settles O54: of the commands only the two builds set SAV, and only the two resets clear it (`step_sav`). -/
theorem onlyBuildsMakeASuffixArray : Obligations.OnlyBuildsMakeASuffixArray := by
  unfold Obligations.OnlyBuildsMakeASuffixArray
  exact fun s t h => flag_changes (step_sav h)

end Sys2Proof.Machine

namespace Sys2Proof.Machine

/-! ## What an earlier command leaves in a working memory (10_state.md R20, R47) -/

section Related

variable {R : State → State → Prop} {s s' : State}

/-- Checked commands whose rows agree, with related failures and related bodies, have related outcomes. -/
theorem OutcomesRelated.checked {checks : List (Bool × Cause)} {k k' : State → Host.Outcome State Fault Refusal}
    (hfail : ∀ c, R (s.fail c) (s'.fail c)) (hk : OutcomesRelated R (k s) (k' s')) :
    OutcomesRelated R (s.checked checks k) (s'.checked checks k') := by
  rw [State.checked_eq, State.checked_eq]
  split_ifs
  · exact hk
  · exact hfail _

/-- Commands that read the same message and go on in related ways have related outcomes. -/
theorem OutcomesRelated.withInput {base n : Nat} {k k' : List Byte → Host.Outcome State Fault Refusal}
    (hibuf : s'.ibuf = s.ibuf) (hk : ∀ bytes, OutcomesRelated R (k bytes) (k' bytes)) :
    OutcomesRelated R (s.withInput base n k) (s'.withInput base n k') := by
  cases hm : s.ibuf.readBlock base n with
  | none => rw [State.withInput_none hm, State.withInput_none (hibuf ▸ hm)]; rfl
  | some bytes => rw [State.withInput_some hm, State.withInput_some (hibuf ▸ hm)]; exact hk bytes

end Related

/-- t' differs from t in NEXT, SORTED, COUNT, STACK, SP and the hidden cursors only (10_state.md R47). -/
def State.SameButWorking (t t' : State) : Prop :=
  t' = { t with next := t'.next, sorted := t'.sorted, count := t'.count, stack := t'.stack, sp := t'.sp, cur := t'.cur }

theorem State.SameButWorking.resultFromSa {s s' : State} (h : s.SameButWorking s') (i : Nat) :
    (s.resultFromSa i).succeed.SameButWorking (s'.resultFromSa i).succeed := by
  rw [h]
  unfold State.resultFromSa
  cases s.sa.read i <;> rfl

/-- Each command checks, reads and computes from what the two states share. -/
theorem exec_sameButWorking {s s' : State} (h : s.SameButWorking s') (i : Instr) :
    OutcomesRelated State.SameButWorking (exec i s) (exec i s') := by
  have hresult := h.resultFromSa s.operand
  unfold State.SameButWorking at h
  generalize s'.next = next, s'.sorted = sorted, s'.count = count, s'.stack = stack, s'.sp = sp, s'.cur = cur at h
  subst h
  have hfail : ∀ c, (s.fail c).SameButWorking (({ s with next, sorted, count, stack, sp, cur } : State).fail c) :=
    fun _ => rfl
  cases i with
  | ctlNop | ctlReset | mtfInit => rfl
  | cssLength | mtfEnc1 | mtfDec1 =>
    simp only [exec, execCssLength, execMtfEnc1, execMtfDec1]
    refine .checked hfail ?_
    rfl
  | cssIndexat =>
    simp only [exec, execCssIndexat]
    exact .checked hfail hresult
  | cssBuild | bwtTransform | mtfEncode | mtfDecode =>
    simp only [exec, execCssBuild, execBwtTransform, execMtfEncode, execMtfDecode]
    refine .checked hfail (.withInput rfl fun _ => ?_)
    rfl
  | bwtInverse =>
    simp only [exec, execBwtInverse]
    refine .checked hfail (.withInput rfl fun _ => .checked hfail (.withInput rfl fun _ => ?_))
    rfl

/-- Settles O50: what differs is read by no check and by no effect but to be written over (`exec_sameButWorking`). -/
theorem workingMemoriesCarryNothingOver : Obligations.WorkingMemoriesCarryNothingOver := by
  unfold Obligations.WorkingMemoriesCarryNothingOver
  exact fun i s s' h => exec_sameButWorking h i

end Sys2Proof.Machine

namespace Sys2Proof.Machine

/-! ## The host's accesses to an idle block (10_state.md R21 to R24, R30 to R32; 20_memory.md R61, R76) -/

theorem hostMove_of_wf {s : State} {m : HostMove} (hwf : m.wf s.bcap = true) : hostMove m s = .next (s.perform m) :=
  if_pos hwf

theorem hostMove_regRead (s : State) {k : Nat} (hk : k < 8) : hostMove (.regRead k) s = .next (s.regRead k) :=
  hostMove_of_wf (m := .regRead k) (decide_eq_true hk)

theorem hostMove_regWrite (s : State) {k : Nat} (v : Word) (hk : k < 8) :
    hostMove (.regWrite k v) s = .next (s.regWrite k v) :=
  hostMove_of_wf (m := .regWrite k v) (decide_eq_true hk)

theorem hostMove_ibufRead {s : State} {j : Nat} (hj : j < s.bcap) : hostMove (.ibufRead j) s = .next (s.ibufRead j) :=
  hostMove_of_wf (m := .ibufRead j) (decide_eq_true hj)

theorem hostMove_obufRead {s : State} {j : Nat} (hj : j < s.bcap) : hostMove (.obufRead j) s = .next (s.obufRead j) :=
  hostMove_of_wf (m := .obufRead j) (decide_eq_true hj)

/-- A write of any register but CMD and ARG is ignored, busy or idle (20_memory.md R62). -/
theorem State.regWrite_ignored (s : State) {k : Nat} (v : Word) (hk : 2 ≤ k) : s.regWrite k v = s := by
  obtain ⟨k, rfl⟩ := Nat.exists_eq_add_of_le' hk
  rfl

section Idle

variable {s : State}

theorem State.regRead_idle_3 (hb : s.busy = false) : s.regRead 3 = s.reply (.word s.result) := by
  simp [State.regRead, hb]

theorem State.regRead_idle_4 (hb : s.busy = false) : s.regRead 4 = s.reply (.word s.olen) := by
  simp [State.regRead, hb]

theorem State.ibufRead_of_some {j : Nat} {b : Byte} (h : s.ibuf.read j = some b) :
    s.ibufRead j = s.reply (.byte b) := by
  unfold State.ibufRead
  rw [h]

theorem State.ibufRead_of_none {j : Nat} (h : s.ibuf.read j = none) : s.ibufRead j = s.replyFreeByte := by
  unfold State.ibufRead
  rw [h]

theorem State.obufRead_of_some (hb : s.busy = false) {j : Nat} {b : Byte} (h : s.obuf.read j = some b) :
    s.obufRead j = s.reply (.byte b) := by
  unfold State.obufRead
  rw [h, hb]
  rfl

theorem State.obufRead_of_none (hb : s.busy = false) {j : Nat} (h : s.obuf.read j = none) :
    s.obufRead j = s.replyFreeByte := by
  unfold State.obufRead
  rw [h, hb]
  rfl

end Idle

/-- Settles O8: every access is a move with an index in its space, and each read finds what the register or byte holds. -/
theorem idleAccesses : Obligations.IdleAccesses := by
  unfold Obligations.IdleAccesses
  intro s hb
  refine ⟨?_, fun v => ?_, fun k v hk hk' => ?_, fun j hj => ?_⟩
  · simp only [List.forall_mem_cons]
    refine ⟨rfl, rfl, rfl, ?_, ?_, rfl, rfl, rfl, by simp⟩
    · rw [hostMove_regRead s (by decide), State.regRead_idle_3 hb]; rfl
    · rw [hostMove_regRead s (by decide), State.regRead_idle_4 hb]; rfl
  · rw [hostMove_regWrite s v (by decide), State.regWrite, hb]; rfl
  · rw [hostMove_regWrite s v hk', State.regWrite_ignored s v hk]
  · rw [hostMove_ibufRead hj, hostMove_obufRead hj]
    refine ⟨fun b h => ?_, fun b h => ?_, fun h => ⟨Config.freeByte s.drawn, ?_⟩,
      fun h => ⟨Config.freeByte s.drawn, ?_⟩⟩
    · rw [State.ibufRead_of_some h]; rfl
    · rw [State.obufRead_of_some hb h]; rfl
    · rw [State.ibufRead_of_none h]; rfl
    · rw [State.obufRead_of_none hb h]; rfl

/-! ## STATUS (10_state.md R24) -/

/-- The lowest byte of STATUS holds the flags, BUSY in bit 0. -/
theorem State.getLsbD_status_of_lt (s : State) {i : Nat} (hi : i < 8) :
    s.status.getLsbD i = [s.busy, s.done, s.err, s.argv, s.sav, s.ovr, false, false].getD i false := by
  unfold State.status
  simp only [BitVec.getLsbD_append, BitVec.getLsbD_ofBool, BitVec.getLsbD_zero]
  interval_cases i <;> rfl

/-- Above the lowest byte STATUS holds the code of the cause. -/
theorem State.getLsbD_status_add (s : State) (i : Nat) : s.status.getLsbD (8 + i) = s.cause.code.getLsbD i := by
  unfold State.status
  simp only [BitVec.getLsbD_append, BitVec.getLsbD_zero]
  rw [show 8 + i - 1 - 1 - 1 - 1 - 1 - 1 - 2 = i by omega]
  repeat rw [if_neg (by omega)]
  rw [ite_eq_left_iff]
  exact fun hi => (BitVec.getLsbD_of_ge _ _ (Nat.not_lt.1 hi)).symm

theorem State.reset_status : State.reset.status = 0 := by decide

/-- Settles O11: the flags, the code and the bits that are 0 stand where STATUS is put together from them. -/
theorem statusLayout : Obligations.StatusLayout := by
  unfold Obligations.StatusLayout
  have hflag := State.getLsbD_status_of_lt
  refine ⟨fun s => ⟨hflag s (by decide), hflag s (by decide), hflag s (by decide), hflag s (by decide),
    hflag s (by decide), hflag s (by decide), ?_, ?_, ?_, rfl, fun v => rfl⟩, State.reset_status⟩
  all_goals
    refine BitVec.eq_of_getLsbD_eq fun i hi => ?_
    rw [BitVec.getLsbD_extractLsb', decide_eq_true hi, Bool.true_and]
  · rw [hflag s (by omega)]
    interval_cases i <;> rfl
  · exact s.getLsbD_status_add i
  · rw [show 12 + i = 8 + (4 + i) by omega, s.getLsbD_status_add, BitVec.getLsbD_of_ge _ _ (Nat.le_add_right 4 i)]
    exact BitVec.getLsbD_zero.symm

/-! ## Hardware reset (10_state.md R45; 70_reset_and_hazards.md R250) -/

theorem getElem?_identityList {j : Nat} (hj : j < 256) : identityList[j]? = some (BitVec.ofNat 8 j) := by
  simp [identityList, hj]

theorem State.hardReset_holdsResetValues (s : State) : s.hardReset.HoldsResetValues := by
  refine ⟨rfl, rfl, rfl, rfl, rfl, rfl, rfl, rfl, State.reset_status, rfl, rfl, rfl, rfl, rfl, rfl, rfl, ?_,
    fun j hj => getElem?_identityList hj, fun j => ⟨rfl, rfl, rfl, rfl, rfl, rfl, rfl⟩⟩
  exact (List.length_map _).trans List.length_range

/-- Settles O56: State.reset is the state after a hardware reset of itself. -/
theorem hardwareResetValues : Obligations.HardwareResetValues := by
  unfold Obligations.HardwareResetValues
  refine ⟨State.reset.hardReset_holdsResetValues, fun s rest hs => ?_⟩
  refine ⟨({ s with schedule := rest } : State).hardReset, ?_, State.hardReset_holdsResetValues _, rfl⟩
  unfold step
  rw [hs]

end Sys2Proof.Machine

namespace Sys2Proof.Machine

/-! ## Moves outside their space, dropped writes and ignored writes (20_memory.md R62, R69) -/

theorem step_of_host {s : State} {m : HostMove} {rest : List Event} (hs : s.schedule = .host m :: rest) :
    step s = hostMove m { s with schedule := rest } := by
  unfold step
  rw [hs]

theorem hostMove_of_not_wf {s : State} {m : HostMove} (hwf : m.wf s.bcap = false) :
    hostMove m s = .refused (.noSuchLocation m) :=
  if_neg (Bool.eq_false_iff.1 hwf)

/-- Settles O10: a register index at or above 8 and a buffer index at or above BCAP are not well formed. -/
theorem moveOutsideItsSpaceIsRefused : Obligations.MoveOutsideItsSpaceIsRefused := by
  unfold Obligations.MoveOutsideItsSpaceIsRefused
  intro s rest m hs hout
  rw [step_of_host hs]
  refine hostMove_of_not_wf ?_
  rcases hout with ⟨k, v, hk, rfl | rfl⟩ | ⟨j, b, hj, rfl | rfl | rfl⟩
  · exact decide_eq_false (Nat.not_lt.2 hk)
  · exact decide_eq_false (Nat.not_lt.2 hk)
  · exact decide_eq_false (Nat.not_lt.2 hj)
  · exact decide_eq_false (Nat.not_lt.2 hj)
  · exact decide_eq_false (Nat.not_lt.2 hj)

theorem hostMove_dropped {s : State} {m : HostMove} (hwf : m.wf s.bcap = true) (hb : s.busy = true)
    (hm : m.isDroppable = true) : hostMove m s = .next { s with ovr := true } := by
  rw [hostMove_of_wf hwf, (s.perform_effect m).eq_overrun hb hm]
  rfl

theorem hostMove_ignored (s : State) {k : Nat} (v : Word) (hk : 2 ≤ k) (hk' : k < 8) :
    hostMove (.regWrite k v) s = .next s := by
  rw [hostMove_regWrite s v hk', s.regWrite_ignored v hk]

/-! ## The host's accesses to a busy block (20_memory.md R62, R76; 10_state.md R21, R22) -/

theorem State.regRead_busy {s : State} (hb : s.busy = true) {k : Nat} (hk : k = 3 ∨ k = 4) :
    s.regRead k = s.replyFreeWord := by
  rcases hk with rfl | rfl <;> exact if_pos hb

theorem State.obufRead_busy {s : State} (hb : s.busy = true) (j : Nat) : s.obufRead j = s.replyFreeByte := if_pos hb

/-- Settles O7: the reads answer by their register or byte, and each write is a dropped or an ignored one. -/
theorem busyAccessesReadTrueOrAreDropped : Obligations.BusyAccessesReadTrueOrAreDropped := by
  unfold Obligations.BusyAccessesReadTrueOrAreDropped
  intro s hb
  refine ⟨rfl, rfl, rfl, ?_, fun j b hj h => ?_, fun j hj h => ⟨Config.freeByte s.drawn, ?_⟩,
    fun k hk => ⟨Config.freeWord s.drawn, ?_⟩, fun j hj => ⟨Config.freeByte s.drawn, ?_⟩,
    fun v => hostMove_dropped rfl hb rfl, fun v => hostMove_dropped rfl hb rfl,
    fun j b hj => hostMove_dropped (decide_eq_true hj) hb rfl, fun k v hk hk' => hostMove_ignored s v hk hk'⟩
  · rintro k (rfl | rfl | rfl) <;> rfl
  · rw [hostMove_ibufRead hj, State.ibufRead_of_some h]; rfl
  · rw [hostMove_ibufRead hj, State.ibufRead_of_none h]; rfl
  · rw [hostMove_regRead s (by omega), State.regRead_busy hb hk]; rfl
  · rw [hostMove_obufRead hj, State.obufRead_busy hb]; rfl

/-! ## What the host's moves change (20_memory.md R67) -/

theorem MoveEffect.eq_of_isRead {s u : State} {m : HostMove} (hu : MoveEffect s m u) (hm : m.isRead = true) :
    ∃ r d, u = { s with replies := r :: s.replies, drawn := d } := by
  cases hu with
  | read r d => exact ⟨r, d, rfl⟩
  | dropped _ hdrop => exact absurd (hdrop.symm.trans (HostMove.isDroppable_of_isRead hm)) (by decide)
  | issue | writeArg | writeIbuf | ignored => cases hm

/-- The eight words whose issue uses up the operand (40_ctl.md R110). -/
theorem consumesOperand_iff (w : Word) :
    consumesOperand w = true ↔ w ∈ ([0x10, 0x12, 0x20, 0x21, 0x31, 0x32, 0x33, 0x34] : List Word) := by
  constructor
  · intro h
    unfold consumesOperand at h
    cases hd : decode w with
    | illegal => simp [hd, Decoded.instr?] at h
    | instr i =>
      simp only [hd, Decoded.instr?] at h
      rw [eq_encode_of_decode hd]
      cases i with
      | ctlNop | ctlReset | cssLength | mtfInit => cases h
      | _ => decide
  · intro h
    simp only [List.mem_cons, List.not_mem_nil, or_false] at h
    rcases h with rfl | rfl | rfl | rfl | rfl | rfl | rfl | rfl <;> rfl

theorem State.issue_eq_issued (s : State) (w : Word) : s.issue w = s.issued w := by
  unfold State.issue State.issued
  simp only [consumesOperand_iff]
  rfl

@[simp] theorem Memory.write_write_same {α : Type} (m : Memory α) (i : Nat) (v : α) :
    (m.write i v).write i v = m.write i v := by
  induction m with
  | nil => simp [Memory.write]
  | cons e m ih =>
    obtain ⟨j, u⟩ := e
    by_cases hlt : i < j
    · simp [Memory.write, hlt]
    · by_cases heq : i = j
      · simp [Memory.write, heq]
      · simp [Memory.write, hlt, heq, ih]

theorem hostMove_ibufWrite_idle {s : State} {j : Nat} (b : Byte) (hj : j < s.bcap) (hb : s.busy = false) :
    hostMove (.ibufWrite j b) s = .next { s with ibuf := s.ibuf.write j b } := by
  rw [hostMove_of_wf (m := .ibufWrite j b) (decide_eq_true hj), State.perform, State.ibufWrite, hb]
  rfl

/-- Settles O9: a read leaves a reply only, and the writes are issued, stored, dropped or ignored. -/
theorem onlyThreeWritesHaveSideEffects : Obligations.OnlyThreeWritesHaveSideEffects := by
  unfold Obligations.OnlyThreeWritesHaveSideEffects
  intro s
  refine ⟨fun m hwf hreg hibuf => ?_, fun v hb => ?_, fun v hb => ?_, fun k v hk hk' => hostMove_ignored s v hk hk',
    fun m hwf hb hm => hostMove_dropped hwf hb (m.isDroppable_iff.2 hm), fun j b hj hb => ?_⟩
  · have hread : m.isRead = true := by
      cases m with
      | regWrite k v => exact absurd rfl (hreg k v)
      | ibufWrite j b => exact absurd rfl (hibuf j b)
      | regRead | ibufRead | obufRead => rfl
    obtain ⟨r, d, hu⟩ := (s.perform_effect m).eq_of_isRead hread
    exact ⟨r, d, by rw [hostMove_of_wf hwf, hu]⟩
  · rw [hostMove_regWrite s v (by decide), State.regWrite, hb, ← s.issue_eq_issued v]; rfl
  · rw [hostMove_regWrite s v (by decide), State.regWrite, hb]; rfl
  · refine ⟨_, hostMove_ibufWrite_idle b hj hb, rfl, Memory.read_write_same .., fun k hk =>
      Memory.read_write_other _ b hk, ?_⟩
    rw [hostMove_ibufWrite_idle (s := { s with ibuf := s.ibuf.write j b }) b hj hb, Memory.write_write_same]

/-! ## Who writes IBUF (20_memory.md R77) -/

theorem complete_ibuf {s t : State} (h : complete s = .next t) : t.ibuf = s.ibuf := by
  rcases complete_next_cases h with ⟨c, -, rfl⟩ | ⟨i, u, -, hu, rfl⟩
  · rfl
  · obtain ⟨-, hibuf, -⟩ := hu.interface_eq
    exact hibuf

/-- Settles O48: of the events only hardware reset and the host's IbufWrite to an idle block touch IBUF. -/
theorem onlyTheHostWritesIbuf : Obligations.OnlyTheHostWritesIbuf := by
  unfold Obligations.OnlyTheHostWritesIbuf
  refine ⟨fun s t h => complete_ibuf h, fun s t h => ?_⟩
  cases step_effect h with
  | idle => exact .inl rfl
  | completion _ _ hc => exact .inl (complete_ibuf hc :)
  | hardReset hs => exact .inr (.inl ⟨_, hs⟩)
  | move hs _ hm =>
    cases hm with
    | writeIbuf hb =>
      exact .inr (.inr ⟨_, _, _, hs, hb, Memory.read_write_same .., fun k hk => Memory.read_write_other _ _ hk⟩)
    | _ => exact .inl rfl

/-! ## The stop of a command (20_memory.md R76; 93_implementation_defined.md U1) -/

theorem Memory.exists_unlisted_of_readBlock_eq_none {α : Type} {m : Memory α} {base n : Nat}
    (h : m.readBlock base n = none) : ∃ j < base + n, m.read j = none := by
  by_contra! hlisted
  have hsome : (m.readBlock base n).isSome = true :=
    (Memory.readBlock_isSome_iff m base n).2 fun k hk => Option.isSome_iff_ne_none.2 (hlisted _ (by omega))
  simp [h] at hsome

/-- `StopsWithin s n o`: the outcome o is a next state, or the stop for a byte of IBUF[0..n-1] that was never written. -/
inductive StopsWithin (s : State) (n : Nat) : Host.Outcome State Fault Refusal → Prop
  | next (t : State) : StopsWithin s n (.next t)
  | unwritten {j : Nat} (hj : j < n) (hunwritten : s.ibuf.read j = none) : StopsWithin s n (.fault .unwrittenInput)

theorem StopsWithin.checked {s : State} {n : Nat} {checks : List (Bool × Cause)}
    {k : State → Host.Outcome State Fault Refusal} (hk : StopsWithin s n (k s)) :
    StopsWithin s n (s.checked checks k) := by
  rw [State.checked_eq]
  split_ifs
  · exact hk
  · exact .next _

theorem StopsWithin.withInput {s : State} {n base len : Nat} {k : List Byte → Host.Outcome State Fault Refusal}
    (hle : base + len ≤ n) (hk : ∀ bytes, StopsWithin s n (k bytes)) : StopsWithin s n (s.withInput base len k) := by
  cases hm : s.ibuf.readBlock base len with
  | none =>
    obtain ⟨j, hj, hunwritten⟩ := Memory.exists_unlisted_of_readBlock_eq_none hm
    rw [State.withInput_none hm]
    exact .unwritten (hj.trans_le hle) hunwritten
  | some bytes => rw [State.withInput_some hm]; exact hk bytes

/-- Every command reads within its message only (20_memory.md R72). -/
theorem exec_stopsWithin (i : Instr) (s : State) : StopsWithin s (messageSpan i s) (exec i s) := by
  cases i with
  | ctlNop | ctlReset | mtfInit => exact .next _
  | cssLength | cssIndexat | mtfEnc1 | mtfDec1 =>
    simp only [exec, execCssLength, execCssIndexat, execMtfEnc1, execMtfDec1]
    exact .checked (.next _)
  | cssBuild | bwtTransform | mtfEncode | mtfDecode =>
    simp only [exec, execCssBuild, execBwtTransform, execMtfEncode, execMtfDecode]
    exact .checked (.withInput (Nat.zero_add _).le fun _ => .next _)
  | bwtInverse =>
    simp only [exec, execBwtInverse]
    exact .checked (.withInput (Nat.le_add_left ..) fun _ =>
      .checked (.withInput (Nat.add_comm ..).le fun _ => .next _))

theorem exec_ne_refused (i : Instr) (s : State) (r : Refusal) : exec i s ≠ .refused r := by
  intro h
  have hstop := exec_stopsWithin i s
  rw [h] at hstop
  cases hstop

theorem exec_fault {i : Instr} {s : State} {f : Fault} (h : exec i s = .fault f) :
    f = .unwrittenInput ∧ ∃ j, j < messageSpan i s ∧ s.ibuf.read j = none := by
  have hstop := exec_stopsWithin i s
  rw [h] at hstop
  cases hstop with
  | unwritten hj hunwritten => exact ⟨rfl, _, hj, hunwritten⟩

/-- A command that always goes on from its message stops exactly when the message is not all written. -/
theorem State.withInput_eq_fault_iff {s : State} {base n : Nat} {k : List Byte → Host.Outcome State Fault Refusal}
    (hk : ∀ bytes, k bytes ≠ .fault .unwrittenInput) :
    s.withInput base n k = .fault .unwrittenInput ↔ s.ibuf.readBlock base n = none := by
  cases hm : s.ibuf.readBlock base n with
  | none => simp [State.withInput_none hm]
  | some bytes => simp [State.withInput_some hm, hk bytes]

section Stops

variable {s : State}

theorem exec_text_fault_iff {i : Instr} (hi : i ∈ [Instr.cssBuild, .bwtTransform])
    (hpass : firstFailure s.textChecks = .none) :
    exec i s = .fault .unwrittenInput ↔ s.ibuf.readBlock 0 s.operand = none := by
  simp only [List.mem_cons, List.not_mem_nil, or_false] at hi
  rcases hi with rfl | rfl
  all_goals
    simp only [exec, execCssBuild, execBwtTransform, State.checked_of_pass hpass]
    exact State.withInput_eq_fault_iff fun _ => nofun

theorem exec_stream_fault_iff {i : Instr} (hi : i ∈ [Instr.mtfEncode, .mtfDecode])
    (hpass : firstFailure s.streamChecks = .none) :
    exec i s = .fault .unwrittenInput ↔ s.ibuf.readBlock 0 s.operand = none := by
  simp only [List.mem_cons, List.not_mem_nil, or_false] at hi
  rcases hi with rfl | rfl
  all_goals
    simp only [exec, execMtfEncode, execMtfDecode, State.checked_of_pass hpass]
    exact State.withInput_eq_fault_iff fun _ => nofun

theorem exec_bwtInverse_of_unwritten_head (hpass : firstFailure s.textChecks = .none)
    (hhead : s.ibuf.readBlock 0 4 = none) : exec .bwtInverse s = .fault .unwrittenInput := by
  rw [exec, execBwtInverse, State.checked_of_pass hpass, State.withInput_none hhead]

theorem exec_bwtInverse_fault_iff {head : List Byte} (hpass : firstFailure s.textChecks = .none)
    (hhead : s.ibuf.readBlock 0 4 = some head) (hfirst : be32 head < s.operand) :
    exec .bwtInverse s = .fault .unwrittenInput ↔ s.ibuf.readBlock 4 s.operand = none := by
  have hpassFirst : firstFailure [(decide (s.operand ≤ be32 head), Cause.first)] = .none := by
    simp [firstFailure, hfirst]
  rw [exec, execBwtInverse, State.checked_of_pass hpass, State.withInput_some hhead, State.checked_of_pass hpassFirst]
  exact State.withInput_eq_fault_iff fun _ => nofun

/-- The checks of the text commands pass, on the operand as the latch ARGL holds it. -/
theorem State.textChecks_pass_of_argl (havl : s.avl = true) (hpos : s.argl ≠ 0) (hle : s.argl.toNat ≤ s.nmax.toNat) :
    firstFailure s.textChecks = .none :=
  s.textChecks_pass.2 ⟨havl, fun h => hpos (BitVec.eq_of_toNat_eq h), hle⟩

end Stops

theorem be32_four (b0 b1 b2 b3 : Byte) :
    be32 [b0, b1, b2, b3] = b0.toNat * 2 ^ 24 + b1.toNat * 2 ^ 16 + b2.toNat * 2 ^ 8 + b3.toNat := by
  simp only [be32, List.foldl_cons, List.foldl_nil]
  omega

/-- Settles O45: a stop lies within the message (`exec_stopsWithin`), and past its checks a command's body is its reads of
the message and then a completion. -/
theorem onlyUnwrittenInputStopsACommand : Obligations.OnlyUnwrittenInputStopsACommand := by
  unfold Obligations.OnlyUnwrittenInputStopsACommand
  refine ⟨fun s i => ⟨exec_ne_refused i s, fun f h => exec_fault h, ?_⟩,
    fun s i hi havl hle => exec_stream_fault_iff hi (s.streamChecks_pass.2 ⟨havl, hle⟩), fun s havl hpos hle => ?_⟩
  · rintro text hi havl hpos hle rfl
    exact exec_text_fault_iff hi (State.textChecks_pass_of_argl havl hpos hle)
  · have hpass := State.textChecks_pass_of_argl havl hpos hle
    refine ⟨exec_bwtInverse_of_unwritten_head hpass, fun b0 b1 b2 b3 hhead hfirst => ?_⟩
    exact exec_bwtInverse_fault_iff hpass hhead (by rwa [be32_four])

/-! ## The host's moves and the busy command (20_memory.md R62, R73) -/

/-- t' differs from t in OVR and in the record of the interface only. -/
def State.SameButRecord (t t' : State) : Prop :=
  t' = { t with ovr := t'.ovr, replies := t'.replies, drawn := t'.drawn }

/-- A busy block answers a read, drops a write or ignores it. -/
theorem MoveEffect.sameButRecord {s u : State} {m : HostMove} (hu : MoveEffect s m u) (hb : s.busy = true) :
    s.SameButRecord u := by
  cases hu with
  | issue hidle | writeArg hidle | writeIbuf hidle => exact absurd (hb.symm.trans hidle) (by decide)
  | dropped | ignored | read => rfl

/-- While SAV = 1 every entry of SA below N is listed, so no CSS.INDEXAT draws a free value (10_state.md R38). -/
theorem State.Inv.sa_listed {s : State} (h : s.Inv) (hsav : s.sav = true) {i : Nat} (hi : i < s.n.toNat) :
    ∃ v, s.sa.read i = some v := by
  obtain ⟨-, -, order, -, hread⟩ := h.suffix_array hsav
  have hlisted := (Memory.readBlock_isSome_iff s.sa 0 s.n.toNat).1 (by rw [hread]; rfl) i hi
  rw [Nat.zero_add] at hlisted
  exact Option.isSome_iff_exists.1 hlisted

theorem State.SameButRecord.fail {s s' : State} (h : s.SameButRecord s') (c : Cause) :
    (s.fail c).SameButRecord (s'.fail c) := by
  rw [h]
  rfl

/-- A listed entry of SA is read, and no free value is drawn. -/
theorem State.SameButRecord.resultFromSa {s s' : State} (h : s.SameButRecord s') {i : Nat} {v : Word}
    (hv : s.sa.read i = some v) : (s.resultFromSa i).succeed.SameButRecord (s'.resultFromSa i).succeed := by
  rw [h]
  unfold State.resultFromSa
  simp only [hv]
  rfl

/-- As `OutcomesRelated.checked`, with the bodies related where the checks pass. -/
theorem OutcomesRelated.checked_of_pass {R : State → State → Prop} {s s' : State} {checks : List (Bool × Cause)}
    {k k' : State → Host.Outcome State Fault Refusal} (hfail : ∀ c, R (s.fail c) (s'.fail c))
    (hk : firstFailure checks = .none → OutcomesRelated R (k s) (k' s')) :
    OutcomesRelated R (s.checked checks k) (s'.checked checks k') := by
  rw [State.checked_eq, State.checked_eq]
  split_ifs with hpass
  · exact hk hpass
  · exact hfail _

/-- No command reads OVR or the record, but for the free value of an unlisted entry of SA, which the invariant rules out. -/
theorem exec_sameButRecord {s s' : State} (hinv : s.Inv) (h : s.SameButRecord s') (i : Instr) :
    OutcomesRelated State.SameButRecord (exec i s) (exec i s') := by
  have hfail := h.fail
  have hresult {v : Word} := h.resultFromSa (i := s.operand) (v := v)
  unfold State.SameButRecord at h
  generalize s'.ovr = ovr, s'.replies = replies, s'.drawn = drawn at h
  subst h
  cases i with
  | ctlNop | ctlReset | mtfInit => rfl
  | cssLength | mtfEnc1 | mtfDec1 =>
    simp only [exec, execCssLength, execMtfEnc1, execMtfDec1]
    refine .checked hfail ?_
    rfl
  | cssIndexat =>
    simp only [exec, execCssIndexat]
    refine .checked_of_pass hfail fun hpass => ?_
    obtain ⟨-, hsav, hlt⟩ := s.indexChecks_pass.1 hpass
    obtain ⟨v, hv⟩ := hinv.sa_listed hsav hlt
    exact hresult hv
  | cssBuild | bwtTransform | mtfEncode | mtfDecode =>
    simp only [exec, execCssBuild, execBwtTransform, execMtfEncode, execMtfDecode]
    refine .checked hfail (.withInput rfl fun _ => ?_)
    rfl
  | bwtInverse =>
    simp only [exec, execBwtInverse]
    refine .checked hfail (.withInput rfl fun _ => .checked hfail (.withInput rfl fun _ => ?_))
    rfl

theorem complete_sameButRecord {s s' : State} (hinv : s.Inv) (h : s.SameButRecord s') :
    OutcomesRelated State.SameButRecord (complete s) (complete s') := by
  have hcmdl : s'.cmdl = s.cmdl := by rw [h]
  unfold complete
  rw [hcmdl]
  cases decode s.cmdl with
  | instr i => exact exec_sameButRecord hinv h i
  | illegal => exact h.fail .illegal

/-- Settles O51: the move changes OVR and the record only, which no completion reads (`complete_sameButRecord`). -/
theorem busyHostCannotDisturbTheCommand : Obligations.BusyHostCannotDisturbTheCommand := by
  unfold Obligations.BusyHostCannotDisturbTheCommand
  intro s s' m hinv hb hmove
  obtain ⟨-, rfl⟩ := hostMove_next hmove
  exact complete_sameButRecord hinv ((s.perform_effect m).sameButRecord hb)

end Sys2Proof.Machine

namespace Sys2Proof.Machine

/-! ## Command words, legal and illegal (30_encoding.md R92, R95) -/

/-- Every bit of the word is decoded: a command is read in its match value and in no other word. -/
theorem decode_eq_instr_iff (w : Word) (i : Instr) : decode w = .instr i ↔ w = encode i :=
  ⟨eq_encode_of_decode, fun h => h ▸ decode_encode i⟩

/-- Settles O1: `decode_eq_instr_iff`, and the twelve rows of the table. -/
theorem wordIsACommandExactlyWhenItMatches : Obligations.WordIsACommandExactlyWhenItMatches := by
  unfold Obligations.WordIsACommandExactlyWhenItMatches
  exact ⟨decode_eq_instr_iff, by decide⟩

theorem forall_instr_iff {p : Instr → Prop} :
    (∀ i, p i) ↔ (p .ctlNop ∧ p .ctlReset) ∧ (p .cssBuild ∧ p .cssLength ∧ p .cssIndexat) ∧
      (p .bwtTransform ∧ p .bwtInverse) ∧ p .mtfInit ∧ p .mtfEnc1 ∧ p .mtfDec1 ∧ p .mtfEncode ∧ p .mtfDecode := by
  refine ⟨fun h => by simp only [h, and_self], ?_⟩
  rintro ⟨⟨_, _⟩, ⟨_, _, _⟩, ⟨_, _⟩, _, _, _, _, _⟩ i
  cases i <;> assumption

/-- The illegal words are those that are none of the twelve match values. -/
theorem decode_ne_instr_iff_toNat_ne (w : Word) :
    (∀ i, decode w ≠ .instr i) ↔ ∀ i, w.toNat ≠ (encode i).toNat :=
  forall_congr' fun i => not_congr ((decode_eq_instr_iff w i).trans BitVec.toNat_inj.symm)

/-- The twelve match values fill the first places of units 0 to 3, so the illegal words are the ranges above them. -/
theorem decode_ne_instr_iff (w : Word) : (∀ i, decode w ≠ .instr i) ↔
    256 ≤ w.toNat ∨ (w.toNat / 16 = 0 ∧ 2 ≤ w.toNat % 16) ∨ (w.toNat / 16 = 1 ∧ 3 ≤ w.toNat % 16) ∨
      (w.toNat / 16 = 2 ∧ 2 ≤ w.toNat % 16) ∨ (w.toNat / 16 = 3 ∧ 5 ≤ w.toNat % 16) ∨ 4 ≤ w.toNat / 16 := by
  rw [decode_ne_instr_iff_toNat_ne, forall_instr_iff]
  simp only [encode, BitVec.reduceToNat]
  omega

theorem instr?_eq_none_iff {d : Decoded} : d.instr? = none ↔ ∀ i, d ≠ .instr i := by
  cases d <;> simp [Decoded.instr?]

theorem consumesOperand_of_illegal {w : Word} (h : ∀ i, decode w ≠ .instr i) : consumesOperand w = false := by
  rw [consumesOperand, instr?_eq_none_iff.2 h]

theorem complete_of_illegal {s : State} (h : ∀ i, decode s.cmdl ≠ .instr i) : complete s = .next (s.fail .illegal) := by
  unfold complete
  cases hd : decode s.cmdl with
  | instr i => exact absurd hd (h i)
  | illegal => rfl

theorem hostMove_command_idle {s : State} (w : Word) (hb : s.busy = false) :
    hostMove (.regWrite 0 w) s = .next (s.issue w) := by
  rw [hostMove_regWrite s w (by decide), State.regWrite, hb]
  rfl

/-- Settles O2: the ranges are `decode_ne_instr_iff`; the issue keeps ARGV, since an illegal word uses up no operand, and
the completion fails, which writes the report and BUSY only. -/
theorem illegalWordFailsAndChangesNothingElse : Obligations.IllegalWordFailsAndChangesNothingElse := by
  unfold Obligations.IllegalWordFailsAndChangesNothingElse
  refine ⟨decode_ne_instr_iff, fun s w hb hw => ⟨s.issue w, hostMove_command_idle w hb, ?_⟩⟩
  rw [complete_of_illegal (s := s.issue w) hw, State.issue, consumesOperand_of_illegal hw]
  rfl

/-- Settles O3: the five legal words are match values, and the eight others lie in the ranges of illegal words. -/
theorem sampleWordsDecode : Obligations.SampleWordsDecode := by
  unfold Obligations.SampleWordsDecode
  refine ⟨decode_encode .ctlNop, decode_encode .ctlReset, decode_encode .cssBuild, decode_encode .bwtInverse,
    decode_encode .mtfDecode, ?_⟩
  simp [instr?_eq_none_iff, decode_ne_instr_iff]

end Sys2Proof.Machine

namespace Sys2Proof.Machine

/-! ## A step at each event (20_memory.md R73; 40_ctl.md R111) -/

section StepEvents

variable {s : State} {rest : List Event}

theorem complete_of_instr {i : Instr} (hi : decode s.cmdl = .instr i) : complete s = exec i s := by
  rw [complete, hi]

theorem sequencerTurn_of_instr {i : Instr} (hb : s.busy = true) (hi : decode s.cmdl = .instr i) :
    sequencerTurn s = exec i s := by
  rw [sequencerTurn, if_pos hb, complete_of_instr hi]

theorem sequencerTurn_of_illegal (hb : s.busy = true) (hw : ∀ i, decode s.cmdl ≠ .instr i) :
    sequencerTurn s = .next (s.fail .illegal) := by
  rw [sequencerTurn, if_pos hb, complete_of_illegal hw]

theorem sequencerTurn_idle (hb : s.busy = false) : sequencerTurn s = .next s := if_neg (Bool.eq_false_iff.1 hb)

theorem step_of_unscheduled (hs : s.schedule = []) : step s = sequencerTurn s := by
  rw [step, hs]

theorem step_of_sequencer (hs : s.schedule = .sequencer :: rest) :
    step s = sequencerTurn { s with schedule := rest } := by
  rw [step, hs]

theorem step_of_hardReset (hs : s.schedule = .hardReset :: rest) :
    step s = .next ({ s with schedule := rest } : State).hardReset := by
  rw [step, hs]

end StepEvents

/-- Settles O4: the step at each event is that event, and the sequencer's turn is told by BUSY and the word in CMDL. -/
theorem stepRunsTheLatchedCommand : Obligations.StepRunsTheLatchedCommand := by
  unfold Obligations.StepRunsTheLatchedCommand
  refine ⟨fun s i hb hi => ⟨fun hs => ?_, fun rest hs => ?_⟩, fun s hb hw => ⟨fun hs => ?_, fun rest hs => ?_⟩,
    fun s hb => ⟨fun hs => ?_, fun rest hs => ?_⟩, fun s rest => ⟨fun m hs => ?_, fun hs => ?_⟩⟩
  · exact (step_of_unscheduled hs).trans (sequencerTurn_of_instr hb hi)
  · exact (step_of_sequencer hs).trans (sequencerTurn_of_instr hb hi)
  · exact (step_of_unscheduled hs).trans (sequencerTurn_of_illegal hb hw)
  · exact (step_of_sequencer hs).trans (sequencerTurn_of_illegal hb hw)
  · exact (step_of_unscheduled hs).trans (sequencerTurn_idle hb)
  · exact (step_of_sequencer hs).trans (sequencerTurn_idle hb)
  · exact step_of_host hs
  · exact step_of_hardReset hs

/-- A fetched word of 32 bits is issued as it stands, and its turn is the next event (log 1). -/
theorem step_withFetchWord (s : State) (w : Word) :
    step (s.withFetchWord 32 w.toNat) = sequencerTurn (s.issue w) := by
  rw [State.withFetchWord, Nat.mod_eq_of_lt w.isLt, BitVec.ofNat_toNat, BitVec.setWidth_eq]
  exact step_of_sequencer rfl

/-- Settles O5: the turn completes the word just issued (`step_withFetchWord`), which decodes to its command. -/
theorem fetchedWordRunsNext : Obligations.FetchedWordRunsNext := by
  unfold Obligations.FetchedWordRunsNext
  intro s i
  rw [step_withFetchWord, ← State.issue_eq_issued]
  exact sequencerTurn_of_instr (State.issue_busy ..) (decode_encode i)

/-! ## The write of CMD and the control commands (40_ctl.md R110, R113, R114) -/

/-- Settles O6: an idle block issues the word (`hostMove_command_idle`), a busy one drops it (`hostMove_dropped`). -/
theorem commandWriteIssuesOrIsDropped : Obligations.CommandWriteIssuesOrIsDropped := by
  unfold Obligations.CommandWriteIssuesOrIsDropped
  refine fun s w => ⟨fun hb => ?_, fun hb => hostMove_dropped rfl hb rfl⟩
  rw [hostMove_command_idle w hb, s.issue_eq_issued w]

/-- Settles O13: CTL.NOP is nothing but completion, and its issue uses up no operand. -/
theorem nopOnlyClearsTheReport : Obligations.NopOnlyClearsTheReport := by
  unfold Obligations.NopOnlyClearsTheReport
  refine ⟨fun s => rfl, fun s hb => ⟨s.issue 0, hostMove_command_idle 0 hb, ?_⟩⟩
  rw [complete_of_instr (s := s.issue 0) (decode_encode .ctlNop)]
  rfl

/-- CTL.RESET leaves the hardware reset state but for DONE, CMDL, the memories and the cursors, which stay (log 5). -/
theorem State.softReset_succeed_eq_hardReset (s : State) : s.softReset.succeed =
    { s.hardReset with done := true, cmdl := s.cmdl, ibuf := s.ibuf, obuf := s.obuf, sa := s.sa, next := s.next,
                       sorted := s.sorted, count := s.count, stack := s.stack, cur := s.cur } := rfl

/-- Settles O14: the writes are those of `State.softReset`, compared with the hardware reset by
`State.softReset_succeed_eq_hardReset`, and a busy block drops the word. -/
theorem softResetLeavesTheResetState : Obligations.SoftResetLeavesTheResetState := by
  unfold Obligations.SoftResetLeavesTheResetState
  refine ⟨fun s => rfl, fun s hcmdl => ?_, fun s hb => hostMove_dropped rfl hb rfl⟩
  rw [exec, execCtlReset, s.softReset_succeed_eq_hardReset, hcmdl]

/-! ## Every issued command completes (40_ctl.md R111; 70_reset_and_hazards.md R252, R262) -/

/-- A command stops only at an unwritten byte of its message (`exec_fault`), so with the message written it answers. -/
theorem State.MessageWritten.exec_answers {s : State} {i : Instr} (hmessage : s.MessageWritten i) :
    ∃ t, exec i s = .next t := by
  cases ho : exec i s with
  | next t => exact ⟨t, rfl⟩
  | fault f =>
    obtain ⟨-, j, hj, hunwritten⟩ := exec_fault ho
    exact absurd (hmessage j hj) (by simp [hunwritten])
  | refused r => exact absurd ho (exec_ne_refused i s r)

/-- The turn runs the command, which answers, and every answer of a completion has BUSY = 0 and DONE = 1. -/
theorem State.MessageWritten.turn_completes {s : State} {i : Instr} (hmessage : s.MessageWritten i) (hb : s.busy = true)
    (hi : decode s.cmdl = .instr i) : ∃ t, sequencerTurn s = .next t ∧ t.busy = false ∧ t.done = true := by
  obtain ⟨t, ht⟩ := hmessage.exec_answers
  obtain ⟨hbusy, hdone, -⟩ := commandEndsInSuccessOrError s t ((complete_of_instr hi).trans ht)
  exact ⟨t, (sequencerTurn_of_instr hb hi).trans ht, hbusy, hdone⟩

/-- Settles O46: with nothing scheduled the step is the sequencer's turn, which `State.MessageWritten.turn_completes`
describes. -/
theorem issuedCommandCompletes : Obligations.IssuedCommandCompletes := by
  unfold Obligations.IssuedCommandCompletes
  intro s i hb hi hmessage
  rw [step_of_unscheduled rfl]
  exact State.MessageWritten.turn_completes (i := i) hmessage hb hi

end Sys2Proof.Machine

namespace Sys2Proof.Machine

/-! ## The sorter's statements (41_css.md R121 to R133) -/

/-- Settles O15: one case a side of the sentinel; a character is a byte, so it lies in [0, 255]. -/
theorem charAtIsCyclicWithASentinel : Obligations.CharAtIsCyclicWithASentinel := by
  unfold Obligations.CharAtIsCyclicWithASentinel
  intro text off d _ hd
  refine ⟨fun hlt => charAt_of_lt off hlt, fun heq => charAt_of_ge off heq.ge, ?_⟩
  rcases hd.lt_or_eq with hlt | heq
  · have := (symbolAt text ((off + d) % text.length)).isLt
    rw [charAt_of_lt off hlt]
    omega
  · rw [charAt_of_ge off heq.ge]
    decide

theorem chooseOrder_of_lookup {table : List (List Byte × List Nat)} {text : List Byte} {order byRefSort : List Nat}
    (htable : table.lookup text = some order) (h : Sorted text order) : chooseOrder table text byRefSort = order := by
  unfold chooseOrder
  rw [htable]
  exact if_pos h

theorem State.suffixOrder_of_tieBreak_nil {s : State} (h : s.tieBreak = []) (text : List Byte) :
    s.suffixOrder text = refSort text := by
  rw [State.suffixOrder, h]
  rfl

/-- Settles O17: `suffixOrder_sorted`, by the correctness of RefSort (`refSort_sorted`); an empty table gives RefSort's
order, and the table of one row gives the row's. -/
theorem suffixOrderIsSorted : Obligations.SuffixOrderIsSorted := by
  unfold Obligations.SuffixOrderIsSorted
  exact ⟨suffixOrder_sorted, fun s text h => State.suffixOrder_of_tieBreak_nil h text,
    fun s text order h => chooseOrder_of_lookup List.lookup_cons_self h⟩

/-- Settles O18: both lists of rotations, and both orders, are rearrangements of each other that do not descend, and the
order of rotations is antisymmetric. -/
theorem tiesOnlyTradePlaces : Obligations.TiesOnlyTradePlaces := by
  unfold Obligations.TiesOnlyTradePlaces
  rintro text p q ⟨hp, hpsorted⟩ ⟨hq, hqsorted⟩
  have hpq : p.Perm q := hp.trans hq.symm
  refine ⟨?_, fun hdifferent => ?_⟩
  · exact (hpq.map (rotation text)).eq_of_pairwise (fun _ _ _ _ => lexLe_antisymm)
      (List.pairwise_map.2 hpsorted) (List.pairwise_map.2 hqsorted)
  · refine hpq.eq_of_pairwise (fun a b ha hb hab hba => ?_) hpsorted hqsorted
    exact hdifferent a (List.mem_range.1 (hp.mem_iff.1 ha)) b (List.mem_range.1 (hq.mem_iff.1 hb))
      (lexLe_antisymm hab hba)

/-- Settles O19: the rounds keep `SortRun.ItemsInv`, and disjoint ranges of two entries are at most floor(n / 2). -/
theorem sortStackNeverOverflows : Obligations.SortStackNeverOverflows := by
  unfold Obligations.SortStackNeverOverflows
  intro text mem cur k
  have hinv := sortRounds_keeps_itemsInv k (sortStart_itemsInv text mem cur)
  refine ⟨fun w hw => ⟨(hinv.fits w hw).two, (hinv.fits w hw).hi_lt⟩, hinv.apart, hinv.length_items_le, fun nmax hle => ?_⟩
  exact (hinv.length_items_le.trans (Nat.div_le_div_right hle)).trans (le_max_right ..)

/-- Settles O20: the rounds use up the weight of the work items (`items_runSort`) and keep `SortRun.ItemsInv`. -/
theorem referenceSortEnds : Obligations.ReferenceSortEnds := by
  unfold Obligations.ReferenceSortEnds
  refine fun text mem cur => ⟨items_runSort text mem cur, fun k => ?_⟩
  have hinv := sortRounds_keeps_itemsInv k (sortStart_itemsInv text mem cur)
  exact ⟨fun w hw => (hinv.fits w hw).depth, hinv.perm⟩

/-! ## The sorter's commands (41_css.md R122, R129 to R131) -/

/-- Settles O22: with SAV = 1 the effect of CSS.LENGTH is the write of RESULT. -/
theorem lengthReturnsN : Obligations.LengthReturnsN := by
  unfold Obligations.LengthReturnsN
  exact fun s hsav => (Effect.cssLength hsav).exec_eq

theorem State.resultFromSa_of_listed {s : State} {i : Nat} {v : Word} (h : s.sa.read i = some v) :
    s.resultFromSa i = { s with result := v } := by
  rw [State.resultFromSa, h]

theorem State.resultFromSa_of_unlisted {s : State} {i : Nat} (h : s.sa.read i = none) :
    s.resultFromSa i = { s.draw with result := Config.freeWord s.drawn } := by
  rw [State.resultFromSa, h]

/-- Settles O23: the effect of CSS.INDEXAT is `State.resultFromSa`, told by whether the entry holds a value. -/
theorem indexAtReturnsTheEntry : Obligations.IndexAtReturnsTheEntry := by
  unfold Obligations.IndexAtReturnsTheEntry
  intro s havl hsav hlt
  have hexec : exec .cssIndexat s = .next (s.resultFromSa s.argl.toNat).succeed :=
    (Effect.cssIndexat havl hsav hlt).exec_eq
  refine ⟨fun v hv => ?_, fun hnone => ⟨Config.freeWord s.drawn, ?_⟩⟩
  · rw [hexec, State.resultFromSa_of_listed hv]
    rfl
  · rw [hexec, State.resultFromSa_of_unlisted hnone]
    rfl

section Build

variable {s : State} {text : List Byte}

/-- The text of a build is ARGL characters long, so N is ARGL. -/
theorem State.buildSuffixArray_n_eq_argl (hm : s.ibuf.readBlock 0 s.argl.toNat = some text) :
    (s.buildSuffixArray text).n = s.argl := by
  rw [State.buildSuffixArray_n, Memory.readBlock_length hm, BitVec.ofNat_toNat, BitVec.setWidth_eq]

theorem State.buildSuffixArray_eq_with_argl (hm : s.ibuf.readBlock 0 s.argl.toNat = some text) :
    s.buildSuffixArray text = { s.buildSuffixArray text with n := s.argl } := by
  rw [← State.buildSuffixArray_n_eq_argl hm]

theorem State.readBlock_buildSuffixArray_sa (s : State) (text : List Byte) :
    (s.buildSuffixArray text).sa.readBlock 0 text.length = some ((s.suffixOrder text).map (BitVec.ofNat 32)) := by
  have h := Memory.readBlock_block ((s.suffixOrder text).map (BitVec.ofNat 32))
  rwa [List.length_map, length_suffixOrder] at h

/-- A build that succeeded wrote the order of the text that IBUF holds. -/
theorem exec_cssBuild_success {t : State} (hm : s.ibuf.readBlock 0 s.argl.toNat = some text)
    (h : exec .cssBuild s = .next t) (hok : t.err = false) : t = (s.buildSuffixArray text).succeed := by
  rcases execCssBuild_next h with ⟨c, -, rfl⟩ | ⟨text', -, -, -, hm', rfl⟩
  · cases hok
  · cases hm.symm.trans hm'
    rfl

end Build

/-- Settles O21: past its checks CSS.BUILD makes `State.buildSuffixArray`, whose N is ARGL
(`State.buildSuffixArray_eq_with_argl`). -/
theorem buildStoresTheSuffixOrder : Obligations.BuildStoresTheSuffixOrder := by
  unfold Obligations.BuildStoresTheSuffixOrder
  intro s text havl hpos hle hm
  refine ⟨_, (Effect.cssBuild havl (fun h => hpos (BitVec.eq_of_toNat_eq h)) hle hm).exec_eq, ?_, ?_⟩
  · rw [← Memory.readBlock_length hm]
    exact s.readBlock_buildSuffixArray_sa text
  · exact congrArg State.succeed (State.buildSuffixArray_eq_with_argl hm)

/-- Row i of the table that a build lists, as CSS.INDEXAT shows it: the offset, which 32 bits hold. -/
theorem State.read_buildSuffixArray_sa {s : State} {text : List Byte} (hlen : text.length < 2 ^ 32) {i : Nat}
    (hi : i < text.length) : ∃ v, (s.buildSuffixArray text).sa.read i = some v ∧
      some v.toNat = (s.suffixOrder text)[i]? := by
  have hsorted := suffixOrder_sorted s text
  have hi' : i < (s.suffixOrder text).length := hsorted.length_eq ▸ hi
  obtain ⟨-, hread⟩ := (Memory.readBlock_eq_some_iff ..).1 (s.readBlock_buildSuffixArray_sa text)
  refine ⟨BitVec.ofNat 32 (s.suffixOrder text)[i], by simpa [hi'] using hread i hi, ?_⟩
  have hentry : (s.suffixOrder text)[i] < text.length :=
    List.mem_range.1 (hsorted.1.mem_iff.1 (List.getElem_mem hi'))
  rw [List.getElem?_eq_getElem hi', BitVec.toNat_ofNat, Nat.mod_eq_of_lt (hentry.trans hlen)]

/-- Settles O24: any state with the SA, N and SAV of the build passes the checks of CSS.LENGTH, and those of CSS.INDEXAT on
every row of the text; the order is TIEBREAK's. -/
theorem sorterAnswersForItsText : Obligations.SorterAnswersForItsText := by
  unfold Obligations.SorterAnswersForItsText
  intro s t u text hm hexec hok hsa hn hsav
  cases exec_cssBuild_success hm hexec hok
  have hlen : text.length = s.argl.toNat := Memory.readBlock_length hm
  replace hn : u.n = s.argl := hn.trans (State.buildSuffixArray_n_eq_argl hm)
  refine ⟨⟨_, lengthReturnsN u hsav, hn⟩, s.suffixOrder text, suffixOrder_sorted s text, fun i hi => ?_⟩
  have hlt : text.length < 2 ^ 32 := hlen ▸ s.argl.isLt
  obtain ⟨v, hv, hvi⟩ := State.read_buildSuffixArray_sa (s := s) hlt hi
  have hargl : (BitVec.ofNat 32 i).toNat = i := (BitVec.toNat_ofNat ..).trans (Nat.mod_eq_of_lt (hi.trans hlt))
  obtain ⟨hindex, -⟩ := indexAtReturnsTheEntry { u with argl := BitVec.ofNat 32 i, avl := true } rfl hsav
    (by rw [hargl, hn, ← hlen]; exact hi)
  exact ⟨_, hindex v (by rw [hargl, hsa]; exact hv), rfl, hvi⟩

end Sys2Proof.Machine

namespace Sys2Proof.Machine

/-! ## The last column (42_bwt.md R151 to R153) -/

/-- Each offset stands in one row, so `first` is the only row of offset 0. -/
theorem eq_firstRow_of_getElem?_eq_zero {text : List Byte} {order : List Nat} (h : Sorted text order) {i : Nat}
    (hi : order[i]? = some 0) : i = firstRow order := by
  obtain ⟨hlt, hget⟩ := List.getElem?_eq_some_iff.1 hi
  have hnodup : order.Nodup := h.1.nodup_iff.2 List.nodup_range
  rw [firstRow, ← hget, hnodup.idxOf_getElem]

/-- Settles O26: offset 0 stands in row `first` (`getElem?_firstRow`) and in no other. -/
theorem firstIsTheRowOfTheText : Obligations.FirstIsTheRowOfTheText := by
  unfold Obligations.FirstIsTheRowOfTheText
  exact fun text order hn h =>
    ⟨firstRow_lt h hn, getElem?_firstRow h hn, fun i => eq_firstRow_of_getElem?_eq_zero h⟩

/-- Over all offsets, the symbols before them are the symbols at them. -/
theorem map_predecessor_range_perm (text : List Byte) :
    ((List.range text.length).map (predecessor text)).Perm text := by
  have hperm := (map_cyclic_predecessor_perm text 1).map (symbolAt · 0)
  have hat : (List.range text.length).map (fun a => symbolAt text (a % text.length)) = text := by
    simpa [rotation] using rotation_zero text
  rw [List.map_map, List.map_map] at hperm
  exact hperm.trans (.of_eq hat)

theorem lastColumn_perm {text : List Byte} {order : List Nat} (h : Sorted text order) :
    (lastColumn text order).Perm text :=
  (h.1.map (predecessor text)).trans (map_predecessor_range_perm text)

/-- Settles O27: SA is a permutation of the offsets, and T takes the symbol before each. -/
theorem lastColumnIsAPermutation : Obligations.LastColumnIsAPermutation := by
  unfold Obligations.LastColumnIsAPermutation
  exact fun text order h => ⟨lastColumn_perm h, fun c => (lastColumn_perm h).count_eq c⟩

theorem symbolAt_rotation (text : List Byte) (a : Nat) {d : Nat} (hd : d < text.length) :
    symbolAt (rotation text a) d = symbolAt text ((a + d) % text.length) := by
  rw [symbolAt, List.getD_eq_getElem?_getD, getElem?_rotation text a hd, Option.getD_some]

/-- The symbol before an offset is the last one of its rotation. -/
theorem predecessor_eq_symbolAt_rotation (text : List Byte) (a : Nat) :
    predecessor text a = symbolAt (rotation text a) (text.length - 1) := by
  rcases Nat.eq_zero_or_pos text.length with hn | hn
  · simp [predecessor, rotation, symbolAt, List.length_eq_zero_iff.1 hn]
  · rw [symbolAt_rotation text a (Nat.sub_lt hn Nat.one_pos), predecessor, Nat.add_sub_assoc hn]

/-- T is read off the sorted rotations alone. -/
theorem lastColumn_eq_map_rotation (text : List Byte) (order : List Nat) :
    lastColumn text order = (order.map (rotation text)).map (symbolAt · (text.length - 1)) := by
  rw [lastColumn, List.map_map]
  exact List.map_congr_left fun a _ => predecessor_eq_symbolAt_rotation text a

/-- Settles O28: the sorted rotations do not depend on ties (`tiesOnlyTradePlaces`), T is their last column, and the one in
row `first` is the text. -/
theorem lastColumnDoesNotDependOnTies : Obligations.LastColumnDoesNotDependOnTies := by
  unfold Obligations.LastColumnDoesNotDependOnTies
  intro text p q hp hq
  have hrotations : p.map (rotation text) = q.map (rotation text) := (tiesOnlyTradePlaces text p q hp hq).1
  refine ⟨by rw [lastColumn_eq_map_rotation, hrotations, ← lastColumn_eq_map_rotation], fun hn => ?_⟩
  have hfirst : (q.map (rotation text))[firstRow p]? = some text := by
    rw [← hrotations, List.getElem?_map, getElem?_firstRow hp hn, Option.map_some, rotation_zero]
  rwa [List.getElem?_map, Option.map_eq_some_iff] at hfirst

/-! ## The tables of the inverse (42_bwt.md R156 to R158, R163) -/

/-- SORTED is T read along NEXT. -/
theorem inverseTables_sorted_eq (column : List Byte) :
    (inverseTables column).sorted = (inverseTables column).next.map (symbolAt column) := by
  have hinv := inverseTables_scatterInv column
  refine List.ext_getElem (by rw [List.length_map, hinv.sorted_length, hinv.next_length]) fun r hr hr' => ?_
  rw [List.length_map] at hr'
  obtain ⟨-, -, hrow⟩ := inverseTables_row (column := column) (hinv.sorted_length ▸ hr)
  rwa [List.getD_eq_getElem _ _ hr, List.getD_eq_getElem _ _ hr', ← List.getElem_map (symbolAt column)] at hrow

theorem map_symbolAt_range (column : List Byte) : (List.range column.length).map (symbolAt column) = column :=
  List.ext_getElem (by simp) fun i _ hi => by simp [symbolAt, hi]

theorem inverseTables_sorted_perm (column : List Byte) : (inverseTables column).sorted.Perm column := by
  have hperm := (inverseTables_next_perm column).map (symbolAt column)
  rwa [← inverseTables_sorted_eq, map_symbolAt_range] at hperm

theorem inverseTables_sorted_pairwise (column : List Byte) :
    (inverseTables column).sorted.Pairwise (fun a b => a.toNat ≤ b.toNat) := by
  rw [inverseTables_sorted_eq]
  refine List.pairwise_map.2 ((inverseTables_next_pairwise column).imp ?_)
  rintro i j (hlt | ⟨heq, -⟩)
  · exact hlt.le
  · rw [heq]

theorem getElem?_inverseTables_next {column : List Byte} {r : Nat} (hr : r < column.length) :
    column[(inverseTables column).next.getD r 0]? = (inverseTables column).sorted[r]? := by
  obtain ⟨hlt, -, hrow⟩ := inverseTables_row hr
  have hr' : r < (inverseTables column).sorted.length := (inverseTables_scatterInv column).sorted_length ▸ hr
  rw [getElem?_eq_symbolAt hlt, ← hrow, List.getD_eq_getElem?_getD, List.getElem?_eq_getElem hr', Option.getD_some]

/-- The counting sort is stable (42_bwt.md R163). -/
theorem inverseTables_next_lt {column : List Byte} {r q : Nat} (hrq : r < q) (hq : q < column.length)
    (heq : (inverseTables column).sorted[r]? = (inverseTables column).sorted[q]?) :
    (inverseTables column).next.getD r 0 < (inverseTables column).next.getD q 0 := by
  have hlen := (inverseTables_scatterInv column).next_length
  obtain ⟨-, -, hrow_r⟩ := inverseTables_row (hrq.trans hq)
  obtain ⟨-, -, hrow_q⟩ := inverseTables_row hq
  have hbefore := List.pairwise_iff_getElem.1 (inverseTables_next_pairwise column) r q (hlen ▸ hrq.trans hq) (hlen ▸ hq) hrq
  rw [← List.getD_eq_getElem _ 0, ← List.getD_eq_getElem _ 0] at hbefore
  rw [List.getD_eq_getElem?_getD] at hrow_r hrow_q
  rcases hbefore with hlt | ⟨-, hlt⟩
  · rw [← hrow_r, ← hrow_q, heq] at hlt
    exact absurd hlt (lt_irrefl _)
  · exact hlt

/-- The scatter moves the entries of bytes only, so COUNT[256] stays. -/
theorem getElem?_count_scatterFrom (t : Tables) (i : Nat) (column : List Byte) {k : Nat} (hk : 256 ≤ k) :
    (scatterFrom t i column).count[k]? = t.count[k]? := by
  induction column generalizing t i with
  | nil => rfl
  | cons c rest ih =>
    rw [scatterFrom, ih, scatterStep]
    exact List.getElem?_set_ne (c.isLt.trans_le hk).ne

/-- COUNT[c] ends as the number of bytes of T up to c (42_bwt.md R158). -/
theorem getElem?_count_inverseTables (column : List Byte) {c : Nat} (hc : c < 256) :
    (inverseTables column).count[c]? = some (smaller column (c + 1)) := by
  have hinv := inverseTables_scatterInv column
  have hlt : c < (inverseTables column).count.length := by rw [hinv.count_length]; exact Nat.lt_succ_of_lt hc
  have hcount := hinv.count (BitVec.ofNat 8 c)
  rw [← countP_toNat_eq, BitVec.toNat_ofNat, Nat.mod_eq_of_lt hc, ← smaller_succ, List.getD_eq_getElem _ _ hlt] at hcount
  rw [List.getElem?_eq_getElem hlt, hcount]

theorem getElem?_count_inverseTables_last (column : List Byte) :
    (inverseTables column).count[256]? = some column.length := by
  have hall : smaller column 256 = column.length := List.countP_eq_length.2 fun b _ => decide_eq_true b.isLt
  have hlt : 256 < (prefixSumPhase (countPhase column)).length := by
    rw [prefixSumPhase, length_runningSum, length_countPhase]
    decide
  rw [inverseTables, getElem?_count_scatterFrom _ _ _ le_rfl, List.getElem?_eq_getElem hlt, ← hall,
    ← getD_prefixSumPhase column le_rfl, List.getD_eq_getElem _ _ hlt]

/-- Settles O29: the scatter places T[i] at its rank in the stable order (`inverseTables_scatterInv`). -/
theorem inverseTablesAreAStableSort : Obligations.InverseTablesAreAStableSort := by
  unfold Obligations.InverseTablesAreAStableSort
  refine fun column => ⟨inverseTables_next_perm column, inverseTables_sorted_perm column,
    inverseTables_sorted_pairwise column, fun r => getElem?_inverseTables_next, fun r q => inverseTables_next_lt,
    fun c hc => ?_, getElem?_count_inverseTables_last column⟩
  simpa only [smaller, Nat.lt_succ_iff] using getElem?_count_inverseTables column hc

/-! ## The commands of the BWT unit (42_bwt.md R150, R154, R159, R161) -/

section Transform

variable {s : State} {text : List Byte}

theorem State.readBlock_writeTransform_obuf (s : State) (text : List Byte) :
    (s.writeTransform text).obuf.readBlock 0 (text.length + 4) = some (bwtMessage text (s.suffixOrder text)) := by
  rw [← length_bwtMessage text (suffixOrder_sorted s text)]
  exact Memory.readBlock_writePrefix ..

theorem State.read_writeTransform_obuf_above (s : State) {text : List Byte} {j : Nat} (hj : text.length + 4 ≤ j) :
    (s.writeTransform text).obuf.read j = s.obuf.read j := by
  rw [State.writeTransform_obuf, Memory.read_writePrefix, length_bwtMessage text (suffixOrder_sorted s text),
    if_neg (Nat.not_lt.2 hj)]

/-- The text of a transform is ARGL characters long, so OLEN is ARGL + 4. -/
theorem State.writeTransform_olen_eq_argl (hm : s.ibuf.readBlock 0 s.argl.toNat = some text) :
    (s.writeTransform text).olen = s.argl + 4 := by
  rw [State.writeTransform_olen, length_bwtMessage text (suffixOrder_sorted s text), Memory.readBlock_length hm,
    BitVec.ofNat_add, BitVec.ofNat_toNat, BitVec.setWidth_eq]
  rfl

theorem State.writeTransform_eq_with_argl (hm : s.ibuf.readBlock 0 s.argl.toNat = some text) :
    s.writeTransform text = { s.writeTransform text with n := s.argl, olen := s.argl + 4 } := by
  have hn : (s.writeTransform text).n = s.argl := State.buildSuffixArray_n_eq_argl hm
  rw [← State.writeTransform_olen_eq_argl hm, ← hn]

end Transform

/-- Settles O25: past its checks BWT.TRANSFORM makes `State.writeTransform`, whose N and OLEN are ARGL and ARGL + 4
(`State.writeTransform_eq_with_argl`). -/
theorem transformEmitsTheMessage : Obligations.TransformEmitsTheMessage := by
  unfold Obligations.TransformEmitsTheMessage
  intro s text havl hpos hle hm
  have hlen : text.length = s.argl.toNat := Memory.readBlock_length hm
  refine ⟨_, (Effect.bwtTransform havl (fun h => hpos (BitVec.eq_of_toNat_eq h)) hle hm).exec_eq, ?_, rfl, ?_,
    fun j hj => ?_, ?_⟩
  · rw [← hlen]
    exact s.readBlock_buildSuffixArray_sa text
  · rw [← hlen]
    exact s.readBlock_writeTransform_obuf text
  · rw [← hlen] at hj
    exact s.read_writeTransform_obuf_above hj
  · exact congrArg State.succeed (State.writeTransform_eq_with_argl hm)

/-! ### The walk -/

/-- The row that a move of the walk reaches. -/
def Tables.move (t : Tables) (row : Nat) : Nat := t.next.getD row 0

/-- Symbol k of the walk is the SORTED entry of the row that k moves reach (42_bwt.md R159). -/
theorem getElem?_walk (t : Tables) {n k : Nat} (hk : k < n) (row : Nat) :
    (walk t n row).1[k]? = some (t.sorted.getD (t.move^[k] row) 0) := by
  induction n generalizing k row with
  | zero => exact absurd hk (Nat.not_lt_zero k)
  | succ n ih =>
    cases k with
    | zero => rfl
    | succ k =>
      rw [walk, List.getElem?_cons_succ, ih (Nat.lt_of_succ_lt_succ hk), Function.iterate_succ_apply]
      rfl

theorem inverseTables_move_mapsTo (column : List Byte) :
    Set.MapsTo (inverseTables column).move (Set.Iio column.length) (Set.Iio column.length) :=
  fun _ hrow => (inverseTables_row hrow).1

/-- A function that agrees with f on a set that f stays within agrees with it after any number of turns. -/
theorem iterate_eqOn {α : Type} {f g : α → α} {S : Set α} (hmaps : Set.MapsTo f S S) (heq : Set.EqOn g f S) (k : Nat) :
    Set.EqOn g^[k] f^[k] S := by
  induction k with
  | zero => exact fun _ _ => rfl
  | succ k ih =>
    intro x hx
    rw [Function.iterate_succ_apply, Function.iterate_succ_apply, heq hx, ih (hmaps hx)]

section Inverse

variable {s : State} {first : Nat} {column : List Byte}

theorem State.readBlock_writeInverse_next (s : State) (first : Nat) (column : List Byte) :
    (s.writeInverse first column).next.readBlock 0 column.length =
      some ((inverseTables column).next.map (BitVec.ofNat 32)) := by
  have h := Memory.readBlock_writePrefix s.next ((inverseTables column).next.map (BitVec.ofNat 32))
  rwa [List.length_map, (inverseTables_scatterInv column).next_length] at h

theorem State.readBlock_writeInverse_sorted (s : State) (first : Nat) (column : List Byte) :
    (s.writeInverse first column).sorted.readBlock 0 column.length = some (inverseTables column).sorted := by
  have h := Memory.readBlock_writePrefix s.sorted (inverseTables column).sorted
  rwa [(inverseTables_scatterInv column).sorted_length] at h

theorem State.readBlock_writeInverse_count (s : State) (first : Nat) (column : List Byte) :
    (s.writeInverse first column).count.readBlock 0 257 = some ((inverseTables column).count.map (BitVec.ofNat 32)) := by
  have h := Memory.readBlock_writePrefix s.count ((inverseTables column).count.map (BitVec.ofNat 32))
  rwa [List.length_map, (inverseTables_scatterInv column).count_length] at h

theorem State.readBlock_writeInverse_obuf (s : State) (first : Nat) (column : List Byte) :
    (s.writeInverse first column).obuf.readBlock 0 column.length = some (inverseText first column) := by
  have h := Memory.readBlock_writePrefix s.obuf (inverseText first column)
  rwa [inverseText, length_walk] at h

/-- Entries from n upward stay. -/
theorem State.read_writeInverse_above (s : State) (first : Nat) {column : List Byte} {j : Nat} (hj : column.length ≤ j) :
    (s.writeInverse first column).obuf.read j = s.obuf.read j ∧
      (s.writeInverse first column).next.read j = s.next.read j ∧
      (s.writeInverse first column).sorted.read j = s.sorted.read j := by
  have hinv := inverseTables_scatterInv column
  simp [Memory.read_writePrefix, length_walk, hinv.next_length, hinv.sorted_length, Nat.not_lt.2 hj]

/-- NEXT as the block stores it is the walk's move, since 32 bits hold every row. -/
theorem State.read_writeInverse_next (s : State) (first : Nat) {column : List Byte} (hlen : column.length < 2 ^ 32) :
    Set.EqOn (fun row => (((s.writeInverse first column).next.read row).getD 0).toNat) (inverseTables column).move
      (Set.Iio column.length) := by
  intro row hrow
  obtain ⟨-, hread⟩ := (Memory.readBlock_eq_some_iff ..).1 (s.readBlock_writeInverse_next first column)
  have hmove : (inverseTables column).move row < column.length := inverseTables_move_mapsTo column hrow
  have hrow' : row < (inverseTables column).next.length := (inverseTables_scatterInv column).next_length.symm ▸ hrow
  have hentry := hread row hrow
  rw [Nat.zero_add, List.getElem?_map, List.getElem?_eq_getElem hrow', ← List.getD_eq_getElem _ 0 hrow'] at hentry
  simp only [hentry, Option.map_some, Option.getD_some, BitVec.toNat_ofNat]
  exact Nat.mod_eq_of_lt (hmove.trans hlen)

/-- OBUF[k] is the SORTED entry of the row that k moves along NEXT reach from `first` (42_bwt.md R159). -/
theorem State.read_writeInverse_obuf (s : State) (hlen : column.length < 2 ^ 32) (hfirst : first < column.length)
    {k : Nat} (hk : k < column.length) :
    ((s.writeInverse first column).obuf.read k).isSome = true ∧ (s.writeInverse first column).obuf.read k =
      (s.writeInverse first column).sorted.read
        ((fun row => (((s.writeInverse first column).next.read row).getD 0).toNat)^[k] first) := by
  have hmaps := inverseTables_move_mapsTo column
  have hrow : (inverseTables column).move^[k] first < (inverseTables column).sorted.length :=
    (inverseTables_scatterInv column).sorted_length.symm ▸ hmaps.iterate k hfirst
  have hsymbol : (s.writeInverse first column).obuf.read k =
      some ((inverseTables column).sorted.getD ((inverseTables column).move^[k] first) 0) := by
    rw [State.writeInverse_obuf, Memory.read_writePrefix, length_walk, if_pos hk, getElem?_walk _ hk]
  rw [hsymbol, iterate_eqOn hmaps (s.read_writeInverse_next first hlen) k hfirst, State.writeInverse_sorted,
    Memory.read_writePrefix, if_pos hrow, List.getD_eq_getElem _ _ hrow, List.getElem?_eq_getElem hrow]
  exact ⟨rfl, rfl⟩

theorem State.writeInverse_olen_eq (s : State) (first : Nat) (column : List Byte) :
    (s.writeInverse first column).olen = BitVec.ofNat 32 column.length := by
  rw [State.writeInverse_olen, length_walk]

theorem State.writeInverse_eq_with_argl (hlen : column.length = s.argl.toNat) :
    s.writeInverse first column = { s.writeInverse first column with olen := s.argl } := by
  have holen := s.writeInverse_olen_eq first column
  rw [hlen, BitVec.ofNat_toNat, BitVec.setWidth_eq] at holen
  rw [← holen]

end Inverse

/-- Settles O30: past its checks BWT.INVERSE makes `State.writeInverse`, whose message is the walk along the stored NEXT
(`State.read_writeInverse_obuf`). -/
theorem inverseWalksTheTables : Obligations.InverseWalksTheTables := by
  unfold Obligations.InverseWalksTheTables
  intro s b0 b1 b2 b3 column havl hpos hle hhead hfirst hcolumn
  have hlen : column.length = s.argl.toNat := Memory.readBlock_length hcolumn
  rw [← be32_four] at hfirst ⊢
  refine ⟨_, (Effect.bwtInverse havl (fun h => hpos (BitVec.eq_of_toNat_eq h)) hle hhead hfirst hcolumn).exec_eq, ?_⟩
  generalize be32 [b0, b1, b2, b3] = first at hfirst ⊢
  rw [← hlen] at hfirst ⊢
  exact ⟨s.readBlock_writeInverse_next first column, s.readBlock_writeInverse_sorted first column,
    s.readBlock_writeInverse_count first column,
    fun k hk => s.read_writeInverse_obuf (hlen ▸ s.argl.isLt) hfirst hk,
    fun j hj => s.read_writeInverse_above first hj, congrArg State.succeed (State.writeInverse_eq_with_argl hlen)⟩

/-! ### The round trip -/

/-- BWT.INVERSE on the BWT message of a text inverts its last column from row `first`. -/
theorem exec_bwtInverse_bwtMessage {u : State} {text : List Byte} {order : List Nat} (hsorted : Sorted text order)
    (havl : u.avl = true) (hpos : u.argl ≠ 0) (hargl : u.argl.toNat = text.length) (hle : u.argl.toNat ≤ u.nmax.toNat)
    (hmessage : u.ibuf.readBlock 0 (text.length + 4) = some (bwtMessage text order)) :
    exec .bwtInverse u = .next (u.writeInverse (firstRow order) (lastColumn text order)).succeed := by
  have hpos' : u.operand ≠ 0 := fun h => hpos (BitVec.eq_of_toNat_eq h)
  have hn : text ≠ [] := List.ne_nil_of_length_pos (Nat.pos_of_ne_zero (hargl ▸ hpos'))
  have hfirst : firstRow order < u.argl.toNat := hargl ▸ firstRow_lt hsorted hn
  have hbe : be32 (be32Bytes (BitVec.ofNat 32 (firstRow order))) = firstRow order := by
    rw [be32_be32Bytes, BitVec.toNat_ofNat, Nat.mod_eq_of_lt (hfirst.trans u.argl.isLt)]
  rw [← length_bwtMessage text hsorted, bwtMessage, List.length_append] at hmessage
  obtain ⟨hhead, hcolumn⟩ := Memory.readBlock_append hmessage
  rw [length_lastColumn hsorted, ← hargl] at hcolumn
  have heffect := Effect.bwtInverse havl hpos' hle hhead (hbe.trans_lt hfirst) hcolumn
  rw [heffect.exec_eq, hbe]

/-- Settles O31: the message carried over is the BWT message of TIEBREAK's order, and the walk from a row that holds a
rotation equal to the text reads the text (`inverseText_lastColumn`). -/
theorem transformThenInverseGivesTheText : Obligations.TransformThenInverseGivesTheText := by
  unfold Obligations.TransformThenInverseGivesTheText
  refine ⟨fun s text hlegal havl hpos hle hm => ?_, fun text order row a h => inverseText_lastColumn h⟩
  have hlen : text.length = s.argl.toNat := Memory.readBlock_length hm
  have hpos' : s.operand ≠ 0 := fun h => hpos (BitVec.eq_of_toNat_eq h)
  have hn : text ≠ [] := List.ne_nil_of_length_pos (Nat.pos_of_ne_zero (hlen ▸ hpos'))
  have hsorted := suffixOrder_sorted s text
  refine ⟨_, (Effect.bwtTransform havl hpos' hle hm).exec_eq, rfl, fun u hcarried havl' hargl hnmax => ?_⟩
  have holen : (s.writeTransform text).olen.toNat = text.length + 4 := by
    rw [State.writeTransform_olen, length_bwtMessage text hsorted]
    exact (toNat_ofNat_of_le_bcapOf hlegal (Nat.add_le_add_right (hlen ▸ hle) 4)).2
  have hmessage : u.ibuf.readBlock 0 (text.length + 4) = some (bwtMessage text (s.suffixOrder text)) := by
    rw [← s.readBlock_writeTransform_obuf text, ← holen]
    exact hcarried
  have hcolumn := length_lastColumn hsorted
  refine ⟨_, exec_bwtInverse_bwtMessage hsorted havl' (hargl ▸ hpos) (hargl ▸ hlen.symm) (hargl ▸ hnmax ▸ hle) hmessage,
    rfl, ?_, ?_⟩
  · rw [State.succeed_olen, State.writeInverse_olen_eq, hcolumn, hlen, BitVec.ofNat_toNat, BitVec.setWidth_eq]
  · have hout := u.readBlock_writeInverse_obuf (firstRow (s.suffixOrder text)) (lastColumn text (s.suffixOrder text))
    rwa [inverseText_lastColumn hsorted (getElem?_firstRow hsorted hn) (rotation_zero text), hcolumn, hlen] at hout

end Sys2Proof.Machine

namespace Sys2Proof.Machine

/-! ## The steps of the recency list (43_mtf.md R182, R183, R189, R190) -/

theorem length_of_perm_identityList {list : List Byte} (h : list.Perm identityList) : list.length = 256 := by
  rw [h.length_eq, identityList, List.length_map, List.length_range]

theorem identityList_nodup : identityList.Nodup := by
  refine List.nodup_range.map_on fun i hi j hj hij => ?_
  have hval := congrArg BitVec.toNat hij
  rwa [BitVec.toNat_ofNat, BitVec.toNat_ofNat, Nat.mod_eq_of_lt (List.mem_range.1 hi),
    Nat.mod_eq_of_lt (List.mem_range.1 hj)] at hval

theorem getElem?_encStep_fst {list : List Byte} (h : list.Perm identityList) (c : Byte) :
    (encStep c list).1 < 256 ∧ list[(encStep c list).1]? = some c :=
  ⟨idxOf_lt_of_perm_identityList h c, getElem?_idxOf_of_perm_identityList h c⟩

theorem getElem?_decStep_fst {list : List Byte} {k : Nat} (hk : k < list.length) :
    list[k]? = some (decStep k list).1 := by
  rw [List.getElem?_eq_getElem hk, decStep, List.getD_eq_getElem _ _ hk]

theorem encStep_front (c : Byte) (list : List Byte) : (encStep c list).2[0]? = some c := rfl

theorem decStep_front (k : Nat) (list : List Byte) : (decStep k list).2[0]? = some (decStep k list).1 := rfl

/-- A step on the front moves nothing. -/
theorem decStep_zero_cons (c : Byte) (rest : List Byte) : decStep 0 (c :: rest) = (c, c :: rest) := rfl

/-- Where everything stands after a move to the front of a full list. -/
theorem moveToFront_places {list : List Byte} (h : list.Perm identityList) {p : Nat} (hp : p < 256) (c : Byte) :
    (moveToFront p c list).length = 256 ∧ (moveToFront p c list)[0]? = some c ∧
      (∀ j, 1 ≤ j → j ≤ p → (moveToFront p c list)[j]? = list[j - 1]?) ∧
      ∀ j, p < j → (moveToFront p c list)[j]? = list[j]? := by
  have hlen := length_of_perm_identityList h
  have hp' : p < list.length := hlen.symm ▸ hp
  refine ⟨(length_moveToFront c hp').trans hlen, rfl, fun j h1 hj => ?_, fun j hj => ?_⟩
  · rw [getElem?_moveToFront p c hp', if_neg (by omega), if_pos hj]
  · rw [getElem?_moveToFront p c hp', if_neg (by omega), if_neg (by omega)]

/-- Settles O36: each symbol stands once in the identity list, and both steps only permute. -/
theorem stepsKeepTheListAPermutation : Obligations.StepsKeepTheListAPermutation := by
  unfold Obligations.StepsKeepTheListAPermutation
  refine ⟨rfl, fun list h => ⟨fun c => ⟨?_, getElem?_encStep_fst h c⟩, encStep_perm h, fun k => decStep_perm h⟩⟩
  exact List.count_eq_one_of_mem (h.nodup_iff.2 identityList_nodup) (mem_of_perm_identityList h c)

/-- Settles O38: a step of decoding undoes the step of encoding (`decStep_encStep`), so a pass undoes a pass
(`decodeStream_encodeStream`). -/
theorem decodeUndoesEncode : Obligations.DecodeUndoesEncode := by
  unfold Obligations.DecodeUndoesEncode
  exact fun list h => ⟨decStep_encStep h, decodeStream_encodeStream h⟩

/-! ## The step commands (43_mtf.md R184 to R186) -/

/-- Settles O33: MTF.INIT has no checks, and its effect writes LIST only. -/
theorem initMakesTheIdentityList : Obligations.InitMakesTheIdentityList := by
  unfold Obligations.InitMakesTheIdentityList
  exact fun s => Effect.mtfInit.exec_eq

/-- A completion that reported no error made the command's effect. -/
theorem exec_success {i : Instr} {s t : State} (h : exec i s = .next t) (hok : t.err = false) :
    ∃ u, Effect s i u ∧ t = u.succeed := by
  rcases exec_next h with ⟨c, -, rfl⟩ | hu
  · cases hok
  · exact hu

theorem State.byteOf_operand (s : State) : BitVec.ofNat 8 s.operand = s.argl.setWidth 8 := BitVec.ofNat_toNat 8 s.argl

/-- A byte that a register holds is read back whole. -/
theorem setWidth_byte_word (c : Byte) : (c.setWidth 32).setWidth 8 = c := by
  rw [BitVec.setWidth_setWidth_of_le c (by decide), BitVec.setWidth_eq]

/-- Settles O34: past its checks MTF.ENC1 makes `State.encodeOne`, whose list is a move to the front
(`moveToFront_places`) from the position of the symbol. -/
theorem encodeStepMovesTheSymbolToTheFront : Obligations.EncodeStepMovesTheSymbolToTheFront := by
  unfold Obligations.EncodeStepMovesTheSymbolToTheFront
  intro s havl hlt hperm
  obtain ⟨hp, hsymbol⟩ := getElem?_encStep_fst hperm (s.argl.setWidth 8)
  obtain ⟨hlen, hfront, hshift, hstay⟩ := moveToFront_places hperm hp (s.argl.setWidth 8)
  have hexec := (Effect.mtfEnc1 havl hlt).exec_eq
  rw [State.byteOf_operand] at hexec
  have hresult : (BitVec.ofNat 32 (encStep (s.argl.setWidth 8) s.list).1).toNat = (encStep (s.argl.setWidth 8) s.list).1 :=
    (BitVec.toNat_ofNat ..).trans (Nat.mod_eq_of_lt (hp.trans (by decide)))
  exact ⟨_, _, hexec, hp, hsymbol, hresult, hlen, hfront, hshift, hstay, rfl⟩

/-- Settles O35: past its checks MTF.DEC1 makes `State.decodeOne`, whose list is a move to the front
(`moveToFront_places`) from the operand. -/
theorem decodeStepMovesThePositionToTheFront : Obligations.DecodeStepMovesThePositionToTheFront := by
  unfold Obligations.DecodeStepMovesThePositionToTheFront
  intro s havl hlt hperm
  have hsymbol := getElem?_decStep_fst ((length_of_perm_identityList hperm).symm ▸ hlt)
  obtain ⟨hlen, hfront, hshift, hstay⟩ := moveToFront_places hperm hlt (decStep s.argl.toNat s.list).1
  exact ⟨_, _, (Effect.mtfDec1 havl hlt).exec_eq, hsymbol, rfl, hlen, hfront, hshift, hstay, rfl⟩

/-- Settles O37: both steps put their symbol in front (`encStep_front`, `decStep_front`), and a command that succeeded made
one. -/
theorem frontHoldsTheLastSymbol : Obligations.FrontHoldsTheLastSymbol := by
  unfold Obligations.FrontHoldsTheLastSymbol
  refine ⟨encStep_front, decStep_front, fun s t h hok => ?_, fun s t h hok => ?_, fun s c rest havl harg hlist => ?_⟩
  · obtain ⟨_, ⟨⟩, rfl⟩ := exec_success h hok
    rw [← State.byteOf_operand]
    exact encStep_front _ _
  · obtain ⟨_, ⟨⟩, rfl⟩ := exec_success h hok
    rw [State.succeed_result, State.decodeOne_result, setWidth_byte_word]
    exact decStep_front _ _
  · have hzero : s.operand = 0 := congrArg BitVec.toNat harg
    have hstep : decStep s.operand s.list = (c, s.list) := by rw [hzero, hlist, decStep_zero_cons]
    refine ⟨_, (Effect.mtfDec1 havl (hzero ▸ by decide)).exec_eq, rfl, ?_, ?_⟩
    · rw [State.succeed_result, State.decodeOne_result, hstep]
    · rw [State.succeed_list, State.decodeOne_list, hstep]

/-! ## The stream commands (43_mtf.md R187, R188) -/

section Message

variable {s : State} {bytes : List Byte}

theorem State.readBlock_writeMessage_obuf (hlen : bytes.length = s.argl.toNat) :
    (s.writeMessage bytes).obuf.readBlock 0 s.argl.toNat = some bytes := by
  rw [← hlen]
  exact Memory.readBlock_writePrefix ..

theorem State.read_writeMessage_obuf_above (hlen : bytes.length = s.argl.toNat) {j : Nat} (hj : s.argl.toNat ≤ j) :
    (s.writeMessage bytes).obuf.read j = s.obuf.read j :=
  (Memory.read_writePrefix ..).trans (if_neg (hlen ▸ Nat.not_lt.2 hj))

theorem State.writeMessage_olen_eq_argl (hlen : bytes.length = s.argl.toNat) : (s.writeMessage bytes).olen = s.argl := by
  rw [State.writeMessage_olen, hlen, BitVec.ofNat_toNat, BitVec.setWidth_eq]

end Message

/-- The cursors `cur` with the MTF counters j, p and c of `last`. -/
def Cursors.withCounters (cur last : Cursors) : Cursors :=
  { cur with mtfJ := last.mtfJ, mtfP := last.mtfP, mtfC := last.mtfC }

/-- A pass leaves its counters j, p and c; the other cursors stay. -/
theorem Cursors.afterPass_eq (cur : Cursors) (symbols positions : List Byte) :
    cur.afterPass symbols positions = cur.withCounters (cur.afterPass symbols positions) := by
  unfold Cursors.afterPass
  split <;> rfl

/-- What a pass with the message and last list `out` makes of s: the common form of `State.encodeMessage` and
`State.decodeMessage`. -/
def State.afterPass (s : State) (out : List Byte × List Byte) (symbols positions : List Byte) : State :=
  { s.writeMessage out.1 with list := out.2, cur := s.cur.afterPass symbols positions }

theorem State.encodeMessage_eq_afterPass (s : State) (input : List Byte) : s.encodeMessage input =
    s.afterPass (encodeStream identityList input) input (encodeStream identityList input).1 := rfl

theorem State.decodeMessage_eq_afterPass (s : State) (input : List Byte) : s.decodeMessage input =
    s.afterPass (decodeStream identityList input) (decodeStream identityList input).1 input := rfl

/-- The completion of a pass with the message and last list `out` over ARGL bytes (43_mtf.md R187, R188): OBUF holds the
message below ARGL and what it held from there on, OLEN = ARGL, and nothing else but LIST, the counters and the report
changes. -/
def State.CompletesPass (s : State) (out : List Byte × List Byte) (t : State) : Prop :=
  t.obuf.readBlock 0 s.argl.toNat = some out.1 ∧ t.list = out.2 ∧
    (∀ j, s.argl.toNat ≤ j → t.obuf.read j = s.obuf.read j) ∧
    t = { s.completed with obuf := t.obuf, olen := s.argl, list := t.list, cur := s.cur.withCounters t.cur }

/-- A pass that writes ARGL bytes completes: it writes OBUF, OLEN, LIST and its counters only. -/
theorem State.afterPass_completesPass {s : State} {out : List Byte × List Byte} (symbols positions : List Byte)
    (hlen : out.1.length = s.argl.toNat) : s.CompletesPass out (s.afterPass out symbols positions).succeed := by
  refine ⟨State.readBlock_writeMessage_obuf hlen, rfl, fun j => State.read_writeMessage_obuf_above hlen, ?_⟩
  have hframe : s.afterPass out symbols positions =
      { s.afterPass out symbols positions with
        olen := s.argl, cur := s.cur.withCounters (s.afterPass out symbols positions).cur } := by
    rw [← State.writeMessage_olen_eq_argl hlen, State.afterPass, ← s.cur.afterPass_eq symbols positions]
  exact congrArg State.succeed hframe

section Input

variable {s : State} {input : List Byte}

theorem length_encodeStream_argl (hm : s.ibuf.readBlock 0 s.argl.toNat = some input) :
    (encodeStream identityList input).1.length = s.argl.toNat :=
  (length_encodeStream ..).trans (Memory.readBlock_length hm)

theorem length_decodeStream_argl (hm : s.ibuf.readBlock 0 s.argl.toNat = some input) :
    (decodeStream identityList input).1.length = s.argl.toNat :=
  (length_decodeStream ..).trans (Memory.readBlock_length hm)

theorem State.encodeMessage_completesPass (hm : s.ibuf.readBlock 0 s.argl.toNat = some input) :
    s.CompletesPass (encodeStream identityList input) (s.encodeMessage input).succeed := by
  rw [State.encodeMessage_eq_afterPass]
  exact State.afterPass_completesPass _ _ (length_encodeStream_argl hm)

theorem State.decodeMessage_completesPass (hm : s.ibuf.readBlock 0 s.argl.toNat = some input) :
    s.CompletesPass (decodeStream identityList input) (s.decodeMessage input).succeed := by
  rw [State.decodeMessage_eq_afterPass]
  exact State.afterPass_completesPass _ _ (length_decodeStream_argl hm)

end Input

/-- Settles O39: past its checks MTF.ENCODE makes the encode pass from the identity list, one byte a byte of the input
(`State.encodeMessage_completesPass`). -/
theorem encodePassCompletes : Obligations.EncodePassCompletes := by
  unfold Obligations.EncodePassCompletes
  exact fun s input havl hle hm =>
    ⟨_, (Effect.mtfEncode havl hle hm).exec_eq, State.encodeMessage_completesPass hm⟩

/-- Settles O40: past its checks MTF.DECODE makes the decode pass from the identity list, one byte a byte of the input
(`State.decodeMessage_completesPass`). -/
theorem decodePassCompletes : Obligations.DecodePassCompletes := by
  unfold Obligations.DecodePassCompletes
  exact fun s input havl hle hm =>
    ⟨_, (Effect.mtfDecode havl hle hm).exec_eq, State.decodeMessage_completesPass hm⟩

/-! ## Step mode and stream mode (43_mtf.md R192) -/

/-- s with the byte c supplied as the operand. -/
def State.supplied (s : State) (c : Byte) : State := { s with argl := c.setWidth 32, avl := true }

/-- A step command with an effect on the next byte takes one step, and the others follow. -/
theorem Effect.stepMode_cons {i : Instr} {s u w : State} {c : Byte} {rest : List Byte} {results : List Word}
    (h : Effect (s.supplied c) i u) (hrest : stepMode i rest u.succeed = some (results, w)) :
    stepMode i (c :: rest) s = some (u.result :: results, w) := by
  have hexec : exec i { s with argl := c.setWidth 32, avl := true } = .next u.succeed := h.exec_eq
  simp only [stepMode, hexec, hrest, Option.map_some, State.succeed_result]

theorem State.supplied_operand (s : State) (c : Byte) : (s.supplied c).operand = c.toNat :=
  BitVec.toNat_setWidth_of_le (by decide)

theorem State.supplied_operand_lt (s : State) (c : Byte) : (s.supplied c).operand < 256 :=
  (s.supplied_operand c).trans_lt c.isLt

/-- The position that encstep returns is the same number as a byte and as a word. -/
theorem setWidth_encStep_fst {list : List Byte} (h : list.Perm identityList) (c : Byte) :
    (BitVec.ofNat 8 (encStep c list).1).setWidth 32 = BitVec.ofNat 32 (encStep c list).1 :=
  BitVec.setWidth_ofNat_of_le_of_lt (by decide) (getElem?_encStep_fst h c).1

/-- MTF.ENC1 on each byte in turn is the encode pass from LIST. -/
theorem stepMode_mtfEnc1 (input : List Byte) {s : State} (h : s.list.Perm identityList) :
    ∃ w, stepMode .mtfEnc1 input s = some ((encodeStream s.list input).1.map (BitVec.setWidth 32), w) ∧
      w.list = (encodeStream s.list input).2 := by
  induction input generalizing s with
  | nil => exact ⟨s, rfl, rfl⟩
  | cons c rest ih =>
    have heffect := Effect.mtfEnc1 (s := s.supplied c) rfl (s.supplied_operand_lt c)
    rw [State.supplied_operand, BitVec.ofNat_toNat, BitVec.setWidth_eq] at heffect
    obtain ⟨w, hrest, hlist⟩ := ih (s := ((s.supplied c).encodeOne c).succeed) (encStep_perm h c)
    refine ⟨w, (heffect.stepMode_cons hrest).trans ?_, hlist⟩
    rw [encodeStream, List.map_cons, setWidth_encStep_fst h c]
    rfl

/-- MTF.DEC1 on each byte in turn is the decode pass from LIST. -/
theorem stepMode_mtfDec1 (input : List Byte) (s : State) :
    ∃ w, stepMode .mtfDec1 input s = some ((decodeStream s.list input).1.map (BitVec.setWidth 32), w) ∧
      w.list = (decodeStream s.list input).2 := by
  induction input generalizing s with
  | nil => exact ⟨s, rfl, rfl⟩
  | cons k rest ih =>
    have heffect := Effect.mtfDec1 (s := s.supplied k) rfl (s.supplied_operand_lt k)
    rw [State.supplied_operand] at heffect
    obtain ⟨w, hrest, hlist⟩ := ih ((s.supplied k).decodeOne k.toNat).succeed
    exact ⟨w, heffect.stepMode_cons hrest, hlist⟩

/-- Settles O41: MTF.INIT makes the identity list, from which the stream command makes its pass and the step commands make
the same one (`stepMode_mtfEnc1`, `stepMode_mtfDec1`). -/
theorem stepModeEqualsStreamMode : Obligations.StepModeEqualsStreamMode := by
  unfold Obligations.StepModeEqualsStreamMode
  intro row hrow s t u v input hm h hok hinit
  cases hinit
  obtain ⟨_, heffect, rfl⟩ := exec_success h hok
  simp only [List.mem_cons, List.not_mem_nil, or_false] at hrow
  rcases hrow with rfl | rfl
  · cases heffect with
    | mtfEncode _ _ hm' =>
      cases hm.symm.trans hm'
      obtain ⟨w, hsteps, hlist⟩ :=
        stepMode_mtfEnc1 input (s := ({ u with list := identityList } : State).succeed) (.refl _)
      exact ⟨_, w, State.readBlock_writeMessage_obuf (length_encodeStream_argl hm), hsteps, hlist⟩
  · cases heffect with
    | mtfDecode _ _ hm' =>
      cases hm.symm.trans hm'
      obtain ⟨w, hsteps, hlist⟩ := stepMode_mtfDec1 input ({ u with list := identityList } : State).succeed
      exact ⟨_, w, State.readBlock_writeMessage_obuf (length_decodeStream_argl hm), hsteps, hlist⟩

end Sys2Proof.Machine

namespace Sys2Proof.Machine

/-! ## The causes and the failed command (60_exceptions.md R211, R212, R215) -/

/-- Settles O43: the completion starts from the issued state and, reporting an error, changes nothing but BUSY and the report
(`commandEndsInSuccessOrError`). -/
theorem failedCommandChangesOnlyTheReport : Obligations.FailedCommandChangesOnlyTheReport := by
  unfold Obligations.FailedCommandChangesOnlyTheReport
  intro s t w _ h herr
  obtain ⟨-, -, ⟨hok, -⟩ | ⟨-, hcause, ht⟩⟩ := commandEndsInSuccessOrError (s.issued w) t h
  · exact absurd (herr.symm.trans hok) (by decide)
  · exact ⟨hcause, ht⟩

/-- Settles O12: the ten rows of R211's table, and R212's two causes that are no invalid argument. -/
theorem causeCodesAndClasses : Obligations.CauseCodesAndClasses := by
  unfold Obligations.CauseCodesAndClasses
  refine ⟨by decide, rfl, rfl, rfl, fun c hnone hfirst hillegal => ?_⟩
  cases c with
  | none => exact absurd rfl hnone
  | first => exact absurd rfl hfirst
  | illegal => exact absurd rfl hillegal
  | _ => rfl

/-! ## The checks of each command (60_exceptions.md R213) -/

@[simp] theorem firstFailure_cons_true (c : Cause) (rest : List (Bool × Cause)) :
    firstFailure ((true, c) :: rest) = c := rfl

@[simp] theorem firstFailure_cons_false (c : Cause) (rest : List (Bool × Cause)) :
    firstFailure ((false, c) :: rest) = firstFailure rest := rfl

/-- A command one of whose checks fails does nothing but report the first such check. -/
theorem State.checked_of_fail {s : State} {checks : List (Bool × Cause)} {c : Cause}
    {k : State → Host.Outcome State Fault Refusal} (h : firstFailure checks = c) (hc : c ≠ .none) :
    s.checked checks k = .next (s.fail c) := by
  rw [State.checked_eq, h, if_neg hc]

/-- The checks that each command makes before it reads a byte of IBUF: its row of R213, but for the fourth check of
BWT.INVERSE. -/
def State.checksOf (s : State) : Instr → List (Bool × Cause)
  | .ctlNop | .ctlReset | .mtfInit => []
  | .cssBuild | .bwtTransform | .bwtInverse => s.textChecks
  | .cssLength => s.lengthChecks
  | .cssIndexat => s.indexChecks
  | .mtfEnc1 => s.symbolChecks
  | .mtfDec1 => s.positionChecks
  | .mtfEncode | .mtfDecode => s.streamChecks

/-- Every command makes its checks first. -/
theorem exec_eq_checked (i : Instr) (s : State) : ∃ k, exec i s = s.checked (s.checksOf i) k := by
  cases i with
  | ctlNop => exact ⟨execCtlNop, rfl⟩
  | ctlReset => exact ⟨execCtlReset, rfl⟩
  | mtfInit => exact ⟨execMtfInit, rfl⟩
  | _ =>
    simp only [exec, execCssBuild, execCssLength, execCssIndexat, execBwtTransform, execBwtInverse, execMtfEnc1,
      execMtfDec1, execMtfEncode, execMtfDecode]
    exact ⟨_, rfl⟩

theorem exec_of_failed_check {i : Instr} {s : State} {c : Cause} (h : firstFailure (s.checksOf i) = c) (hc : c ≠ .none) :
    exec i s = .next (s.fail c) := by
  obtain ⟨k, hk⟩ := exec_eq_checked i s
  rw [hk, State.checked_of_fail h hc]

/-- The first check of a command with an operand is that one was supplied. -/
theorem State.checksOf_of_takesOperand (s : State) {i : Instr} (hi : takesOperand i = true) :
    ∃ rest, s.checksOf i = (!s.avl, .absent) :: rest := by
  cases i with
  | ctlNop | ctlReset | cssLength | mtfInit => cases hi
  | _ => exact ⟨_, rfl⟩

theorem exec_of_absent_operand {i : Instr} {s : State} (hi : takesOperand i = true) (havl : s.avl = false) :
    exec i s = .next (s.fail .absent) := by
  obtain ⟨rest, hrest⟩ := s.checksOf_of_takesOperand hi
  exact exec_of_failed_check (by rw [hrest, havl]; rfl) (by decide)

/-! ### The checks past E_ABSENT, on the operand as the latch ARGL holds it -/

section Rows

variable {s : State}

theorem State.textChecks_empty (havl : s.avl = true) (hzero : s.argl = 0) : firstFailure s.textChecks = .empty := by
  simp [State.textChecks, State.operand, havl, hzero]

theorem State.textChecks_capacity (havl : s.avl = true) (hpos : s.argl ≠ 0) (hgt : s.nmax.toNat < s.argl.toNat) :
    firstFailure s.textChecks = .capacity := by
  have hoperand : (s.argl.toNat == 0) = false := beq_false_of_ne fun h => hpos (BitVec.eq_of_toNat_eq h)
  simp [State.textChecks, hoperand, State.operand, havl, hgt]

theorem State.lengthChecks_nosa (hsav : s.sav = false) : firstFailure s.lengthChecks = .nosa := by
  simp [State.lengthChecks, hsav]

theorem State.indexChecks_nosa (havl : s.avl = true) (hsav : s.sav = false) : firstFailure s.indexChecks = .nosa := by
  simp [State.indexChecks, havl, hsav]

theorem State.indexChecks_index (havl : s.avl = true) (hsav : s.sav = true) (hge : s.n.toNat ≤ s.argl.toNat) :
    firstFailure s.indexChecks = .index := by
  simp [State.indexChecks, State.operand, havl, hsav, hge]

theorem State.symbolChecks_mtfsym (havl : s.avl = true) (hge : 256 ≤ s.argl.toNat) :
    firstFailure s.symbolChecks = .mtfsym := by
  simp [State.symbolChecks, State.operand, havl, hge]

theorem State.positionChecks_mtfidx (havl : s.avl = true) (hge : 256 ≤ s.argl.toNat) :
    firstFailure s.positionChecks = .mtfidx := by
  simp [State.positionChecks, State.operand, havl, hge]

theorem State.streamChecks_capacity (havl : s.avl = true) (hgt : s.bcap < s.argl.toNat) :
    firstFailure s.streamChecks = .capacity := by
  simp [State.streamChecks, State.operand, havl, hgt]

/-- The fourth check of BWT.INVERSE reads IBUF[0..3] and no byte of T (60_exceptions.md R214; log 7). -/
theorem exec_bwtInverse_of_first_ge {head : List Byte} (hpass : firstFailure s.textChecks = .none)
    (hhead : s.ibuf.readBlock 0 4 = some head) (hfirst : s.operand ≤ be32 head) :
    exec .bwtInverse s = .next (s.fail .first) := by
  rw [exec, execBwtInverse, State.checked_of_pass hpass, State.withInput_some hhead]
  exact State.checked_of_fail (by simp [hfirst]) (by decide)

end Rows

/-- Settles O42: every command makes its row of checks first (`exec_eq_checked`), and the first that fails is all it
reports (`exec_of_failed_check`). -/
theorem checksReportTheFirstFailure : Obligations.ChecksReportTheFirstFailure := by
  unfold Obligations.ChecksReportTheFirstFailure
  refine ⟨fun s => complete_of_illegal, fun s i => complete_of_instr, fun s i hi => ?_,
    fun s i hi havl => exec_of_absent_operand ?_ havl, fun s i hi havl => ?_,
    fun s b0 b1 b2 b3 havl hpos hle hhead hfirst => ?_,
    fun s hsav => exec_of_failed_check (State.lengthChecks_nosa hsav) (by decide),
    fun s havl => ⟨fun hsav => exec_of_failed_check (State.indexChecks_nosa havl hsav) (by decide),
      fun hsav hge => exec_of_failed_check (State.indexChecks_index havl hsav hge) (by decide)⟩,
    fun s havl hge => ⟨exec_of_failed_check (State.symbolChecks_mtfsym havl hge) (by decide),
      exec_of_failed_check (State.positionChecks_mtfidx havl hge) (by decide)⟩,
    fun s i hi havl hgt => exec_of_failed_check ?_ (by decide)⟩
  · simp only [List.mem_cons, List.not_mem_nil, or_false] at hi
    rcases hi with rfl | rfl | rfl <;> exact ⟨_, rfl, rfl⟩
  · revert i
    decide
  · have hrow : s.checksOf i = s.textChecks := by
      simp only [List.mem_cons, List.not_mem_nil, or_false] at hi
      rcases hi with rfl | rfl | rfl <;> rfl
    exact ⟨fun hzero => exec_of_failed_check (hrow ▸ State.textChecks_empty havl hzero) (by decide),
      fun hpos hgt => exec_of_failed_check (hrow ▸ State.textChecks_capacity havl hpos hgt) (by decide)⟩
  · exact exec_bwtInverse_of_first_ge (State.textChecks_pass_of_argl havl hpos hle) hhead (by rwa [be32_four])
  · have hrow : s.checksOf i = s.streamChecks := by
      simp only [List.mem_cons, List.not_mem_nil, or_false] at hi
      rcases hi with rfl | rfl <;> rfl
    rw [hrow]
    exact State.streamChecks_capacity havl hgt

end Sys2Proof.Machine

namespace Sys2Proof.Machine

/-! ## The hazards of reset and of the operand (70_reset_and_hazards.md R250, R260) -/

/-- Settles O57: the reset state is idle (`step_of_hardReset`), and an idle block issues the word it is given
(`hostMove_command_idle`). -/
theorem hardwareResetAbandonsTheCommand : Obligations.HardwareResetAbandonsTheCommand := by
  unfold Obligations.HardwareResetAbandonsTheCommand
  intro s w rest hs
  refine ⟨_, ({ s with schedule := rest } : State).hardReset.issue w, step_of_hardReset hs, rfl, rfl, ?_, rfl, rfl⟩
  rw [step_of_host rfl]
  exact hostMove_command_idle w rfl

section Operand

variable {s t : State} {i : Instr}

theorem consumesOperand_encode (i : Instr) : consumesOperand (encode i) = takesOperand i := by
  rw [consumesOperand, decode_encode]; rfl

/-- The completion of a command just issued (log 1). -/
theorem complete_issue (s : State) (i : Instr) : complete (s.issue (encode i)) = exec i (s.issue (encode i)) :=
  complete_of_instr (decode_encode i)

theorem State.issue_argv_of_takesOperand (s : State) (hi : takesOperand i = true) :
    (s.issue (encode i)).argv = false := by
  rw [State.issue_argv, consumesOperand_encode, if_pos hi]

/-- Only CTL.RESET writes ARG and ARGV at its completion (40_ctl.md R112, R114). -/
theorem exec_operand_eq (h : exec i s = .next t) (hi : i ≠ .ctlReset) : t.arg = s.arg ∧ t.argv = s.argv := by
  rcases exec_next h with ⟨c, -, rfl⟩ | ⟨u, hu, rfl⟩
  · exact ⟨rfl, rfl⟩
  · obtain ⟨harg, hargv, -⟩ := hu.operand_eq hi
    exact ⟨harg, hargv⟩

/-- With ARGV = 0 the issue latches no operand, and the completion reports it (70_reset_and_hazards.md R260). -/
theorem complete_issue_of_unsupplied (hi : takesOperand i = true) (hargv : s.argv = false) :
    complete (s.issue (encode i)) = .next ((s.issue (encode i)).fail .absent) := by
  rw [complete_issue]
  exact exec_of_absent_operand hi hargv

end Operand

/-- Settles O47: the issue clears ARGV, the completion leaves it and ARG alone (`exec_operand_eq`), and the next operand
command finds no operand (`complete_issue_of_unsupplied`). -/
theorem operandIsUsedOnce : Obligations.OperandIsUsedOnce := by
  unfold Obligations.OperandIsUsedOnce
  intro s t i j hi hj h
  rw [← s.issue_eq_issued, complete_issue] at h
  have hreset : i ≠ .ctlReset := by rintro rfl; cases hi
  obtain ⟨harg, hkept⟩ := exec_operand_eq h hreset
  have hargv : t.argv = false := hkept.trans (s.issue_argv_of_takesOperand hi)
  rw [← t.issue_eq_issued]
  exact ⟨hargv, harg, _, complete_issue_of_unsupplied hj hargv, rfl, rfl⟩

end Sys2Proof.Machine
